-- ==== Sys2Proof/Word.lean ====
section
/-!
DEFINITION. The words of the block: command and response words, character bytes, 16-bit data
(spec 20 R61, 30 R70 to R72) and letter indices (spec 00 R16).
-/

namespace Sys2Proof

/-- A command or response word, carried whole on the 32-bit port (R61). -/
abbrev Word := BitVec 32

/-- One character byte or one 8-bit field of a command (R59, R70). -/
abbrev Byte := BitVec 8

/-- The 16-bit operand `n` of a log command and the data field of a response (R70, R72). -/
abbrev Data := BitVec 16

/-- A letter index 0..25, standing for A..Z (R16). Its arithmetic is modulo 26, as R124 requires. -/
abbrev Letter := Fin 26

/-- A Baudot code of five bits (R57). -/
abbrev Code := BitVec 5

/-- The index of one of the twelve Lorenz wheels (R30). -/
abbrev WheelIx := Fin 12

end Sys2Proof
end

