-- ==== Sys2Proof/Syntax.lean ====
section
/-!
DEFINITION. The commands of the block: one constructor per row of the opcode table (spec 30 R74).
Operands stand in the order idx, then a, then b, or idx, then n (R84).
-/

namespace Sys2Proof

/-- A decoded command. Every operand is the unsigned field of the command word (R71); its range is
checked by the command's own rule, not by the format. -/
inductive Instr where
  | nop
  | geterr
  | clrerr
  | info (idx : Byte)
  | eEnter (a : Byte)
  | eXform (a : Byte)
  | eSetrot (idx a : Byte)
  | eGetrot (idx : Byte)
  | eSetpos (idx a : Byte)
  | eGetpos (idx : Byte)
  | eSetlat (idx a : Byte)
  | eGetlat (idx : Byte)
  | eSetref (a : Byte)
  | eGetref
  | eAddpr (a b : Byte)
  | eRempr (a b : Byte)
  | eGetplg (a : Byte)
  | lProc (a : Byte)
  | lXform (a : Byte)
  | lSetpos (idx a : Byte)
  | lGetpos (idx : Byte)
  | lSetpin (idx a : Byte)
  | lGetpin (idx : Byte)
  | lLoglen
  | lLogrd (idx : Byte) (n : Data)
  | lLogtrn (n : Data)
  | bEnc (a : Byte)
  | bDec (a : Byte)
  deriving DecidableEq, Repr

end Sys2Proof
end

