-- ==== Sys2Proof/Decode.lean ====
section
/-!
DEFINITION. Decoding and encoding of command words (spec 30 R70 to R75, R80 to R83), and the byte
order of a bus adapter (20 R62).
-/

namespace Sys2Proof

/-- The four fields of a command word (R70). -/
structure Fields where
  op : Byte
  idx : Byte
  b : Byte
  a : Byte
  deriving DecidableEq, Repr

/-- `op = C[31:24]`, `idx = C[23:16]`, `b = C[15:8]`, `a = C[7:0]` (R71). -/
def Fields.ofWord (w : Word) : Fields :=
  { op := w.extractLsb' 24 8, idx := w.extractLsb' 16 8, b := w.extractLsb' 8 8,
    a := w.extractLsb' 0 8 }

/-- The word `{op, idx, b, a}` (R12, R70). -/
def Fields.toWord (f : Fields) : Word := f.op ++ f.idx ++ f.b ++ f.a

/-- The 16-bit operand `n = {b, a}` (R70). -/
def Fields.n (f : Fields) : Data := f.b ++ f.a

/-- Why a word is no command (R83): an unassigned opcode (R80) or a nonzero unused field (R75, R81). -/
inductive DecodeError where
  | illegal
  | rsvd
  deriving DecidableEq, Repr

/-- One row of the opcode table: the mnemonic, the opcode, which fields the command uses, and the
command its fields make (R74). -/
structure OpRow where
  mnemonic : String
  op : Byte
  usesIdx : Bool
  usesB : Bool
  usesA : Bool
  build : Fields → Instr

/-- The `match` column of R74: the opcode with every other field zero. -/
def OpRow.pattern (r : OpRow) : Word := r.op ++ (0 : Byte) ++ (0 : Byte) ++ (0 : Byte)

/-- The bits of one field that the `mask` column covers: all of them when the field is unused. -/
def fieldMask (used : Bool) : Byte := if used then 0x00 else 0xFF

/-- The `mask` column of R74: the opcode and every unused field. -/
def OpRow.mask (r : OpRow) : Word :=
  (0xFF : Byte) ++ fieldMask r.usesIdx ++ fieldMask r.usesB ++ fieldMask r.usesA

/-- Every field the row does not use is zero (R75). -/
def OpRow.unusedZero (r : OpRow) (f : Fields) : Bool :=
  (r.usesIdx || f.idx == 0) && (r.usesB || f.b == 0) && (r.usesA || f.a == 0)

/-- The control group of R74. -/
def controlRows : List OpRow := [
  ⟨"NOP", 0x00, false, false, false, fun _ => .nop⟩,
  ⟨"GETERR", 0x01, false, false, false, fun _ => .geterr⟩,
  ⟨"CLRERR", 0x02, false, false, false, fun _ => .clrerr⟩,
  ⟨"INFO", 0x03, true, false, false, fun f => .info f.idx⟩]

/-- The Enigma group of R74. -/
def enigmaRows : List OpRow := [
  ⟨"E_ENTER", 0x10, false, false, true, fun f => .eEnter f.a⟩,
  ⟨"E_XFORM", 0x11, false, false, true, fun f => .eXform f.a⟩,
  ⟨"E_SETROT", 0x12, true, false, true, fun f => .eSetrot f.idx f.a⟩,
  ⟨"E_GETROT", 0x13, true, false, false, fun f => .eGetrot f.idx⟩,
  ⟨"E_SETPOS", 0x14, true, false, true, fun f => .eSetpos f.idx f.a⟩,
  ⟨"E_GETPOS", 0x15, true, false, false, fun f => .eGetpos f.idx⟩,
  ⟨"E_SETLAT", 0x16, true, false, true, fun f => .eSetlat f.idx f.a⟩,
  ⟨"E_GETLAT", 0x17, true, false, false, fun f => .eGetlat f.idx⟩,
  ⟨"E_SETREF", 0x18, false, false, true, fun f => .eSetref f.a⟩,
  ⟨"E_GETREF", 0x19, false, false, false, fun _ => .eGetref⟩,
  ⟨"E_ADDPR", 0x1A, false, true, true, fun f => .eAddpr f.a f.b⟩,
  ⟨"E_REMPR", 0x1B, false, true, true, fun f => .eRempr f.a f.b⟩,
  ⟨"E_GETPLG", 0x1C, false, false, true, fun f => .eGetplg f.a⟩]

/-- The Lorenz group of R74. -/
def lorenzRows : List OpRow := [
  ⟨"L_PROC", 0x20, false, false, true, fun f => .lProc f.a⟩,
  ⟨"L_XFORM", 0x21, false, false, true, fun f => .lXform f.a⟩,
  ⟨"L_SETPOS", 0x22, true, false, true, fun f => .lSetpos f.idx f.a⟩,
  ⟨"L_GETPOS", 0x23, true, false, false, fun f => .lGetpos f.idx⟩,
  ⟨"L_SETPIN", 0x24, true, false, true, fun f => .lSetpin f.idx f.a⟩,
  ⟨"L_GETPIN", 0x25, true, false, false, fun f => .lGetpin f.idx⟩,
  ⟨"L_LOGLEN", 0x26, false, false, false, fun _ => .lLoglen⟩,
  ⟨"L_LOGRD", 0x27, true, true, true, fun f => .lLogrd f.idx f.n⟩,
  ⟨"L_LOGTRN", 0x28, false, true, true, fun f => .lLogtrn f.n⟩]

/-- The Baudot group of R74. -/
def baudotRows : List OpRow := [
  ⟨"B_ENC", 0x30, false, false, true, fun f => .bEnc f.a⟩,
  ⟨"B_DEC", 0x31, false, false, true, fun f => .bDec f.a⟩]

/-- The opcode table of R74. Every opcode that heads no row is unassigned (R73). -/
def opcodeTable : List OpRow := controlRows ++ enigmaRows ++ lorenzRows ++ baudotRows

/-- Decode the fields of a word: first the opcode, then the unused fields (60 R171). -/
def decodeFields (f : Fields) : Except DecodeError Instr :=
  match opcodeTable.find? (fun r => r.op == f.op) with
  | none => .error .illegal
  | some r => if r.unusedZero f then .ok (r.build f) else .error .rsvd

/-- Decode one command word; total on every word (R83). -/
def decode (w : Word) : Except DecodeError Instr := decodeFields (Fields.ofWord w)

/-- The fields of a command: unused fields are zero (R75, R84). -/
def Instr.fields : Instr → Fields
  | .nop => ⟨0x00, 0, 0, 0⟩
  | .geterr => ⟨0x01, 0, 0, 0⟩
  | .clrerr => ⟨0x02, 0, 0, 0⟩
  | .info idx => ⟨0x03, idx, 0, 0⟩
  | .eEnter a => ⟨0x10, 0, 0, a⟩
  | .eXform a => ⟨0x11, 0, 0, a⟩
  | .eSetrot idx a => ⟨0x12, idx, 0, a⟩
  | .eGetrot idx => ⟨0x13, idx, 0, 0⟩
  | .eSetpos idx a => ⟨0x14, idx, 0, a⟩
  | .eGetpos idx => ⟨0x15, idx, 0, 0⟩
  | .eSetlat idx a => ⟨0x16, idx, 0, a⟩
  | .eGetlat idx => ⟨0x17, idx, 0, 0⟩
  | .eSetref a => ⟨0x18, 0, 0, a⟩
  | .eGetref => ⟨0x19, 0, 0, 0⟩
  | .eAddpr a b => ⟨0x1A, 0, b, a⟩
  | .eRempr a b => ⟨0x1B, 0, b, a⟩
  | .eGetplg a => ⟨0x1C, 0, 0, a⟩
  | .lProc a => ⟨0x20, 0, 0, a⟩
  | .lXform a => ⟨0x21, 0, 0, a⟩
  | .lSetpos idx a => ⟨0x22, idx, 0, a⟩
  | .lGetpos idx => ⟨0x23, idx, 0, 0⟩
  | .lSetpin idx a => ⟨0x24, idx, 0, a⟩
  | .lGetpin idx => ⟨0x25, idx, 0, 0⟩
  | .lLoglen => ⟨0x26, 0, 0, 0⟩
  | .lLogrd idx n => ⟨0x27, idx, n.extractLsb' 8 8, n.extractLsb' 0 8⟩
  | .lLogtrn n => ⟨0x28, 0, n.extractLsb' 8 8, n.extractLsb' 0 8⟩
  | .bEnc a => ⟨0x30, 0, 0, a⟩
  | .bDec a => ⟨0x31, 0, 0, a⟩

/-- The command word of a command (R70, R74). -/
def encode (i : Instr) : Word := i.fields.toWord

/-- The four bytes a bus adapter carries a word as: byte 0 is bits 7:0 and byte 3 is bits 31:24
(R62). -/
def bytesOfWord (w : Word) : List Byte :=
  [w.extractLsb' 0 8, w.extractLsb' 8 8, w.extractLsb' 16 8, w.extractLsb' 24 8]

/-- The word a bus adapter makes of four bytes, byte 0 first (R62). Any other number of bytes makes
no word: every command is exactly 32 bits (R82). -/
def wordOfBytes : List Byte → Option Word
  | [b0, b1, b2, b3] => some (b3 ++ b2 ++ b1 ++ b0)
  | _ => none

/-- The command word whose bits are `w`, of which the table gives `nbits`; the bits above are 0. -/
def tableWord (nbits w : Nat) : Word := BitVec.ofNat 32 (w % 2 ^ nbits)

/-- What the decoder reads from the table's bits `w`, laid out as the bytes of R62 and taken
together again. -/
def decodeTableWord (nbits w : Nat) : Option Instr :=
  (wordOfBytes (bytesOfWord (tableWord nbits w))).bind fun word => (decode word).toOption

end Sys2Proof
end

