-- ==== Sys2Proof/Machine/Flags.lean ====
section
/-!
DEFINITION. The error statuses, the sticky error flags and the response word: everything the block
has in place of condition codes (spec 10 R35, R37; 30 R72; 60 R170, R174).
-/

namespace Sys2Proof.Machine

/-- The seven error statuses of R170. -/
inductive ErrorStatus where
  | illegal
  | rsvd
  | index
  | value
  | nocfg
  | logfull
  | logrange
  deriving DecidableEq, Repr

/-- The status code of an error, 0x01 to 0x07 (R170). -/
def ErrorStatus.code : ErrorStatus → Byte
  | .illegal => 0x01
  | .rsvd => 0x02
  | .index => 0x03
  | .value => 0x04
  | .nocfg => 0x05
  | .logfull => 0x06
  | .logrange => 0x07

/-- The bit of `errf` that an error sets: bit k-1 for status code k (R37, R174). -/
def ErrorStatus.bit (e : ErrorStatus) : Nat := e.code.toNat - 1

/-- `errf` with that bit alone set. -/
def ErrorStatus.flag (e : ErrorStatus) : BitVec 7 := 1#7 <<< e.bit

/-- The response word `{status, 0x00, data}` (R72). -/
def responseWord (status : Byte) (data : Data) : Word := status ++ (0 : Byte) ++ data

/-- The response of a command that ends with status OK (R15, R72). -/
def okResponse (data : Data) : Word := responseWord 0x00 data

/-- The response of a command that ends with an error: `{code, 0x00, 0x0000}` (R173). -/
def errorResponse (e : ErrorStatus) : Word := responseWord e.code 0

/-- The status field of a response word (R72). -/
def responseStatus (r : Word) : Byte := r.extractLsb' 24 8

/-- The data field of a response word (R72). -/
def responseData (r : Word) : Data := r.extractLsb' 0 16

/-- Enigma response data: bit 8 is the letter flag, bits 7:0 the output byte (R79). -/
def enigmaData (letterFlag : Bool) (out : Byte) : Data :=
  (if letterFlag then 0x0100#16 else 0x0000#16) ||| out.setWidth 16

/-- How a Lorenz command handled its byte (R140). -/
inductive Disposition where
  | enciphered
  | newline
  | dropped
  deriving DecidableEq, Repr

/-- The value of data bits 9:8 (R140). Value 3 is never returned. -/
def Disposition.bits : Disposition → Byte
  | .enciphered => 0
  | .newline => 1
  | .dropped => 2

/-- Lorenz response data: bits 9:8 the disposition, bits 7:0 the output byte (R79). -/
def lorenzData (d : Disposition) (out : Byte) : Data := d.bits ++ out

end Sys2Proof.Machine
end

