-- ==== Sys2Proof/Config.lean ====
section
/-!
DEFINITION. What an instance of the block fixes for its life (spec 00 R7), and the one value the
spec leaves free. The default values of the parameters stand in Machine/Catalog.lean.
-/

namespace Sys2Proof

/-- One entry of the rotor catalog: a named wiring with its notch set (R7, R53). -/
structure RotorEntry where
  name : String
  wiring : Vector Letter 26
  notches : List Letter
  deriving DecidableEq, Repr

/-- One entry of the reflector catalog: a named mapping (R7, R53). -/
structure ReflectorEntry where
  name : String
  mapping : Vector Letter 26
  deriving DecidableEq, Repr

/-- The parameter record of R7. It is read-only storage and hardwired numbers: no command writes it
(R53, R36), and log entry 1 says why the model carries it in the state. -/
structure Config where
  /-- `NROT`: how many rotor slots the chain has. -/
  nrot : Nat
  /-- `ROTOR_CATALOG`. -/
  rotors : Vector RotorEntry 8
  /-- `REFLECTOR_CATALOG`. -/
  reflectors : Vector ReflectorEntry 3
  /-- `WHEEL_SIZES`, in the wheel numbering of R30. -/
  wheelSizes : Vector Nat 12
  /-- `BAUDOT_TABLE`: the symbol byte of each mapped code (R57). -/
  baudot : Vector (Option Byte) 32
  /-- `LOG_DEPTH`: how many bytes each Lorenz log holds. -/
  logDepth : Nat
  /-- `ENIGMA_FOLD_LOWER`: whether the Enigma unit takes a lowercase byte for its letter. -/
  foldLower : Bool
  deriving DecidableEq, Repr

/-- The two Lorenz logs of R50. -/
inductive LogSel where
  | pt
  | ct
  deriving DecidableEq, Repr

/-- FREE VALUE (log entry 3): the byte of a log cell that nothing has written, which R43 leaves
unspecified and 93 U1 treats as any value. It has no body, so no proof can see what it is. -/
opaque Config.unwrittenLogByte : LogSel → Nat → Byte

end Sys2Proof
end

