-- ==== Sys2Proof/Machine/Catalog.lean ====
section
/-!
DEFINITION. The default value of every parameter of spec 00 R7: the rotor catalog of 20 R54, the
reflector catalog of R55, the Baudot table of R57, the wheel sizes of 10 R30 and the default NROT,
LOG_DEPTH and ENIGMA_FOLD_LOWER. The spec marks the three tables as general knowledge (log entry 2).
-/

namespace Sys2Proof

namespace Letters

abbrev A : Letter := 0
abbrev B : Letter := 1
abbrev C : Letter := 2
abbrev D : Letter := 3
abbrev E : Letter := 4
abbrev F : Letter := 5
abbrev G : Letter := 6
abbrev H : Letter := 7
abbrev I : Letter := 8
abbrev J : Letter := 9
abbrev K : Letter := 10
abbrev L : Letter := 11
abbrev M : Letter := 12
abbrev N : Letter := 13
abbrev O : Letter := 14
abbrev P : Letter := 15
abbrev Q : Letter := 16
abbrev R : Letter := 17
abbrev S : Letter := 18
abbrev T : Letter := 19
abbrev U : Letter := 20
abbrev V : Letter := 21
abbrev W : Letter := 22
abbrev X : Letter := 23
abbrev Y : Letter := 24
abbrev Z : Letter := 25

end Letters

open Letters in
/-- R54, row by row: the wiring is `Wire[A..Z]` and the notches are the letters of the notch set. -/
def defaultRotors : Vector RotorEntry 8 := #v[
  ⟨"I", #v[E, K, M, F, L, G, D, Q, V, Z, N, T, O, W, Y, H, X, U, S, P, A, I, B, R, C, J], [Q]⟩,
  ⟨"II", #v[A, J, D, K, S, I, R, U, X, B, L, H, W, T, M, C, Q, G, Z, N, P, Y, F, V, O, E], [E]⟩,
  ⟨"III", #v[B, D, F, H, J, L, C, P, R, T, X, V, Z, N, Y, E, I, W, G, A, K, M, U, S, Q, O], [V]⟩,
  ⟨"IV", #v[E, S, O, V, P, Z, J, A, Y, Q, U, I, R, H, X, L, N, F, T, G, K, D, C, M, W, B], [J]⟩,
  ⟨"V", #v[V, Z, B, R, G, I, T, Y, U, P, S, D, N, H, L, X, A, W, M, J, Q, O, F, E, C, K], [Z]⟩,
  ⟨"VI", #v[J, P, G, V, O, U, M, F, Y, Q, B, E, N, H, Z, R, D, K, A, S, X, L, I, C, T, W], [Z, M]⟩,
  ⟨"VII", #v[N, Z, J, H, G, R, C, X, M, Y, S, W, B, O, U, F, A, I, V, L, P, E, K, Q, D, T], [Z, M]⟩,
  ⟨"VIII", #v[F, K, Q, H, T, L, X, O, C, B, J, S, P, D, Z, R, A, M, E, W, N, I, U, Y, G, V], [Z, M]⟩]

open Letters in
/-- R55, row by row: `Refl[A..Z]`. -/
def defaultReflectors : Vector ReflectorEntry 3 := #v[
  ⟨"A", #v[E, J, M, Z, A, L, Y, X, V, B, W, F, C, R, Q, U, O, N, T, S, P, I, K, H, G, D]⟩,
  ⟨"B", #v[Y, R, U, H, Q, S, L, D, P, X, N, G, O, K, M, I, E, B, F, Z, C, W, V, J, A, T]⟩,
  ⟨"C", #v[F, V, P, J, I, A, O, Y, E, D, R, Z, X, W, G, C, T, K, U, Q, S, B, N, M, H, L]⟩]

/-- R57, code 0 to code 31: the symbol byte, or none for the two shift codes. -/
def defaultBaudot : Vector (Option Byte) 32 := #v[
  some 0x00, some 0x45, some 0x0A, some 0x41, some 0x20, some 0x53, some 0x49, some 0x55,
  some 0x0D, some 0x44, some 0x52, some 0x4A, some 0x4E, some 0x46, some 0x43, some 0x4B,
  some 0x54, some 0x5A, some 0x4C, some 0x57, some 0x48, some 0x59, some 0x50, some 0x51,
  some 0x4F, some 0x42, some 0x47, none, some 0x4D, some 0x58, some 0x56, none]

/-- R7, R30: chi 41, 31, 29, 26, 23, psi 43, 47, 51, 53, 59, motor 37, 61. -/
def defaultWheelSizes : Vector Nat 12 := #v[41, 31, 29, 26, 23, 43, 47, 51, 53, 59, 37, 61]

/-- Every parameter of R7 at its default. -/
def Config.default : Config where
  nrot := 3
  rotors := defaultRotors
  reflectors := defaultReflectors
  wheelSizes := defaultWheelSizes
  baudot := defaultBaudot
  logDepth := 4096
  foldLower := true

end Sys2Proof
end

