-- ==== Sys2Proof/WellFormed.lean ====
section
/-!
DEFINITION. The two well-formedness checks of the spec: of a configuration (spec 00 R10; the
parameter ranges of R7; 93 U8), and of a command's operands against a configuration (30 R77, R78).
-/

namespace Sys2Proof

/-- A wiring is a bijection on 0..25 (R10): every letter is the image of some letter, which on a
finite set is the same. -/
abbrev RotorEntry.IsBijection (r : RotorEntry) : Prop :=
  ∀ y : Letter, y ∈ r.wiring.toList

/-- A reflector is an involution of 0..25 (R10). -/
abbrev ReflectorEntry.IsInvolution (r : ReflectorEntry) : Prop :=
  ∀ x : Letter, r.mapping[r.mapping[x]] = x

/-- The symbol bytes `BAUDOT_TABLE` maps some code to, in the order of their codes (R57). -/
def Config.symbols (c : Config) : List Byte := c.baudot.toList.filterMap id

/-- `BAUDOT_TABLE` is injective (R10): no symbol stands at two codes. -/
abbrev Config.BaudotInjective (c : Config) : Prop := c.symbols.Nodup

/-- `BAUDOT_TABLE` has 30 entries (R7; log entry 5). -/
abbrev Config.BaudotEntries (c : Config) : Prop := c.symbols.length = 30

/-- A configuration the model has a meaning for (R10, and the ranges of R7 that 93 U8 refuses to go
beyond). Notch sets and reflector mappings are subsets of 0..25 by their types. -/
structure Config.WellFormed (c : Config) : Prop where
  nrot_le : c.nrot ≤ 16
  rotors_bijective : ∀ k : Fin 8, c.rotors[k].IsBijection
  reflectors_involutive : ∀ k : Fin 3, c.reflectors[k].IsInvolution
  sizes_pos : ∀ w : WheelIx, 1 ≤ c.wheelSizes[w]
  baudot_injective : c.BaudotInjective
  baudot_entries : c.BaudotEntries
  logDepth_pos : 1 ≤ c.logDepth
  logDepth_le : c.logDepth ≤ 65535

/-- The same check as a Bool, for the step to run. -/
def Config.wf (c : Config) : Bool :=
  decide (c.nrot ≤ 16) && decide (∀ k : Fin 8, c.rotors[k].IsBijection) &&
    decide (∀ k : Fin 3, c.reflectors[k].IsInvolution) &&
    decide (∀ w : WheelIx, 1 ≤ c.wheelSizes[w]) && decide c.BaudotInjective &&
    decide c.BaudotEntries && decide (1 ≤ c.logDepth) && decide (c.logDepth ≤ 65535)

/-- The index field names an existing element (R77): a rotor slot, a wheel, a log select or an
information select, by opcode. -/
def Instr.indexLegal (c : Config) : Instr → Bool
  | .eSetrot idx _ | .eGetrot idx | .eSetpos idx _ | .eGetpos idx | .eSetlat idx _
  | .eGetlat idx => idx.toNat < c.nrot
  | .lSetpos idx _ | .lGetpos idx | .lSetpin idx _ | .lGetpin idx => idx.toNat ≤ 11
  | .lLogrd idx _ | .info idx => idx.toNat ≤ 1
  | _ => true

/-- The size of the wheel an index field names; no wheel beyond the twelfth has one (R30). -/
def Config.sizeAt (c : Config) (idx : Byte) : Nat := c.wheelSizes.toList.getD idx.toNat 0

/-- The value operands are in range (R78): a catalog id, a position, a bit, a letter index, a pair
of two different letters to add, a five-bit code. -/
def Instr.valueLegal (c : Config) : Instr → Bool
  | .eSetrot _ a => a.toNat ≤ 7
  | .eSetpos _ a => a.toNat ≤ 25
  | .eSetlat _ a | .lSetpin _ a => a.toNat ≤ 1
  | .eSetref a => a.toNat ≤ 2
  | .eAddpr a b => a.toNat ≤ 25 && b.toNat ≤ 25 && a != b
  | .eRempr a b => a.toNat ≤ 25 && b.toNat ≤ 25
  | .eGetplg a => a.toNat ≤ 25
  | .lSetpos idx a => a.toNat < c.sizeAt idx
  | .bDec a => a.toNat ≤ 31
  | _ => true

/-- A command whose operands name what R77 and R78 let them name. A command that is not well-formed
is still a command: its own rule answers it with E_INDEX or E_VALUE (spec 60 R170). -/
def Instr.wellFormed (c : Config) (i : Instr) : Bool := i.indexLegal c && i.valueLegal c

end Sys2Proof
end

