-- ==== Sys2Proof/Machine/State.lean ====
section
/-!
DEFINITION. The state of the block (spec 10 R20 to R43), of its port (70 R204) and of the host's
side of the port, the reasons a step can stop, and the state after reset (10 R43, 70 R190).
-/

namespace Sys2Proof.Machine

/-- One rotor slot (R23): whether a rotor is fitted (`cfg`), its catalog id, its position and its
double-step latch. -/
structure Slot where
  fitted : Bool
  id : Fin 8
  pos : Letter
  lat : Bool
  deriving DecidableEq, Repr

/-- A slot after reset (R23, R43). -/
def Slot.unfitted : Slot := ⟨false, 0, 0, false⟩

/-- The reflector select register (R27): whether a reflector is selected (`cfg`), and its id. -/
structure ReflectorSel where
  fitted : Bool
  id : Fin 3
  deriving DecidableEq, Repr

/-- One Lorenz wheel (R31): its position and its circular pin pattern. -/
structure Wheel where
  pos : Nat
  pins : List Bool
  deriving DecidableEq, Repr

/-- One log array (R32, R50): the bytes written so far, each with its index. In canonical form the
indices rise strictly. An index that is not listed holds no value: its byte is unspecified (R43). -/
abbrev LogMem := List Host.Cell

/-- What the host drives on its four inputs at one edge (R204). -/
structure PortIn where
  rst : Bool
  cmdValid : Bool
  cmd : Word
  rspReady : Bool
  deriving DecidableEq, Repr

/-- The machine. The first field is the configuration, which no command writes; then the record of
R20; then the port; then the model's own fields, which stand for the host's side of the port. -/
structure State where
  /-- The parameters of R7, fixed for the life of the instance. -/
  cfg : Config
  /-- The rotor chain: `cfg.nrot` slots, slot 0 fastest (R22). -/
  slots : List Slot
  /-- The reflector select register (R27). -/
  refl : ReflectorSel
  /-- The plugboard partner table (R28). -/
  plug : Vector Letter 26
  /-- The twelve Lorenz wheels (R30). -/
  wheels : Vector Wheel 12
  /-- The length both logs share (R32, R33). -/
  loglen : Data
  /-- The plaintext log (R32). -/
  logPT : LogMem
  /-- The ciphertext log (R32). -/
  logCT : LogMem
  /-- The sticky error flags (R37). -/
  errf : BitVec 7
  /-- The response of the command in flight (R204); none when no command is in flight. -/
  rsp : Option Word
  /-- How many edges pass before that response is offered (R204, R205). -/
  wait : Nat
  /-- The host's inputs at the coming edges, the next first; after them it drives nothing. -/
  pins : List PortIn
  /-- For each coming command, the next first, how many edges its latency has beyond one; after
  them none (the open parameter CMD_LATENCY of R205; log entry 7). -/
  latencies : List Nat
  /-- The responses the host has taken, the last one first (the observation of R206). -/
  taken : List Word
  deriving DecidableEq, Repr

/-- Why the machine stops with a fault. -/
inductive Fault where
  /-- Raised by MemRead and MemWrite (R14) of Machine/Ops.lean at a log index outside
  0..LOG_DEPTH-1, which does not exist (R50). Safe: no command of a well-formed state reaches it
  (log entry 4). -/
  | noLogEntry
  deriving DecidableEq, Repr

/-- Why the machine has no meaning to give. -/
inductive Refusal where
  /-- For an arm of exec that has no meaning yet; no arm is left with it. Safe. -/
  | notModelled (mnemonic : String)
  /-- Raised by the step when the configuration is not well-formed (R10; R177; 93 U8: the model
  refuses it). Safe: the spec gives such a configuration no meaning. -/
  | illFormedConfig
  deriving DecidableEq, Repr

/-- The empty plugboard: every letter is its own partner (R28, R43). -/
def emptyPlug : Vector Letter 26 :=
  #v[0, 1, 2, 3, 4, 5, 6, 7, 8, 9, 10, 11, 12, 13, 14, 15, 16, 17, 18, 19, 20, 21, 22, 23, 24, 25]

/-- A wheel of a given size after reset: position 0 and every pin 0 (R31, R43). -/
def Wheel.zero (size : Nat) : Wheel := ⟨0, List.replicate size false⟩

/-- The twelve wheels after reset, each with its own size (R30, R43). -/
def zeroWheels (z : Vector Nat 12) : Vector Wheel 12 :=
  #v[Wheel.zero z[0], Wheel.zero z[1], Wheel.zero z[2], Wheel.zero z[3], Wheel.zero z[4],
    Wheel.zero z[5], Wheel.zero z[6], Wheel.zero z[7], Wheel.zero z[8], Wheel.zero z[9],
    Wheel.zero z[10], Wheel.zero z[11]]

/-- The state after reset of an instance with configuration `c` (R43, R190). The log contents are
unspecified, so the logs list nothing. No command is in flight and the host drives nothing. -/
def State.resetFor (c : Config) : State where
  cfg := c
  slots := List.replicate c.nrot Slot.unfitted
  refl := ⟨false, 0⟩
  plug := emptyPlug
  wheels := zeroWheels c.wheelSizes
  loglen := 0
  logPT := []
  logCT := []
  errf := 0
  rsp := none
  wait := 0
  pins := []
  latencies := []
  taken := []

/-- The state after reset of an instance with every parameter at its default. -/
def State.reset : State := State.resetFor Config.default

end Sys2Proof.Machine
end

