-- ==== Sys2Proof/Machine/Operands.lean ====
section
/-!
DEFINITION. The operand forms of the commands (spec 30 R77, R78): each turns a field of the command
word into the element it names, or none when the field is out of its range. Also the two character
classifiers (40 R90, 41 R130).
-/

namespace Sys2Proof.Machine

/-- A rotor slot 0..NROT-1 (R77). -/
def slotIndex (c : Config) (idx : Byte) : Option Nat :=
  if idx.toNat < c.nrot then some idx.toNat else none

/-- A wheel 0..11 (R77). -/
def wheelIndex (idx : Byte) : Option WheelIx :=
  if h : idx.toNat < 12 then some ⟨idx.toNat, h⟩ else none

/-- A log select: 0 the plaintext log, 1 the ciphertext log (R77). -/
def logIndex (idx : Byte) : Option LogSel :=
  match idx.toNat with
  | 0 => some .pt
  | 1 => some .ct
  | _ => none

/-- A letter index or a rotor position 0..25 (R78). -/
def letterOperand (a : Byte) : Option Letter :=
  if h : a.toNat < 26 then some ⟨a.toNat, h⟩ else none

/-- A rotor catalog id 0..7 (R78). -/
def rotorId (a : Byte) : Option (Fin 8) :=
  if h : a.toNat < 8 then some ⟨a.toNat, h⟩ else none

/-- A reflector catalog id 0..2 (R78). -/
def reflectorId (a : Byte) : Option (Fin 3) :=
  if h : a.toNat < 3 then some ⟨a.toNat, h⟩ else none

/-- A bit value 0..1 (R78). -/
def bitOperand (a : Byte) : Option Bool :=
  match a.toNat with
  | 0 => some false
  | 1 => some true
  | _ => none

/-- A position of wheel `w`, 0..WHEEL_SIZES[w]-1 (R78, R145). -/
def wheelPosition (c : Config) (w : WheelIx) (a : Byte) : Option Nat :=
  if a.toNat < c.wheelSizes[w] then some a.toNat else none

/-- A five-bit code 0..31 (R78). -/
def codeOperand (a : Byte) : Option Code :=
  if a.toNat < 32 then some (a.setWidth 5) else none

/-- The uppercase byte of a lowercase ASCII letter; every other byte as it is. -/
def upper (a : Byte) : Byte :=
  if 0x61 ≤ a.toNat ∧ a.toNat ≤ 0x7A then a - 0x20 else a

/-- `fold(c)` of R90. -/
def enigmaFold (c : Config) (a : Byte) : Byte := if c.foldLower then upper a else a

/-- The letter index of a character byte, or none when it is non-alphabetic (R90, R16). -/
def enigmaLetter (c : Config) (a : Byte) : Option Letter :=
  let f := (enigmaFold c a).toNat
  if h : 0x41 ≤ f ∧ f ≤ 0x5A then some ⟨f - 0x41, by omega⟩ else none

/-- `chr(i) = 0x41 + i` (R16). -/
def letterByte (x : Letter) : Byte := BitVec.ofNat 8 (0x41 + x.val)

/-- The code `BAUDOT_TABLE` gives a symbol byte, if it maps some code to it (R131). -/
def baudotCode (c : Config) (s : Byte) : Option Code :=
  (c.baudot.toList.findIdx? (fun o => o == some s)).map (BitVec.ofNat 5)

/-- The sentinel `?` (R59). -/
def sentinel : Byte := 0x3F

/-- The newline byte (R59). -/
def newlineByte : Byte := 0x0A

/-- `Sym(k)`: the symbol byte of a code, or the sentinel when the code is unmapped (R131). -/
def baudotSymbol (c : Config) (k : Code) : Byte := (c.baudot[k.toFin]).getD sentinel

/-- The three classes of R130. -/
inductive LorenzChar where
  | newline
  | symbol (s : Byte) (code : Code)
  | other
  deriving DecidableEq, Repr

/-- Classify a character byte: uppercase it, then test for newline before the table (R130). -/
def lorenzClass (c : Config) (a : Byte) : LorenzChar :=
  if upper a = newlineByte then .newline
  else match baudotCode c (upper a) with
    | some k => .symbol (upper a) k
    | none => .other

end Sys2Proof.Machine
end

