-- ==== Sys2Proof/Machine/Ops.lean ====
section
/-!
DEFINITION. The named operations over the state: ending a command with a result or with an error,
reads and writes of each element, and MemRead and MemWrite on the logs (spec 00 R13 to R15).
-/

namespace Sys2Proof.Machine

/-! ### How a command ends -/

/-- `respond(d)` of R15: status OK and data `d`. -/
def State.respond (s : State) (d : Data) : State := { s with rsp := some (okResponse d) }

/-- `raise E_X` of R15, the block's whole error entry (R173, R174): the response carries the code
and data 0, the error's sticky flag is set, and nothing else changes. There is no return from it
(R176): the next command runs as usual. -/
def State.raise (s : State) (e : ErrorStatus) : State :=
  { s with rsp := some (errorResponse e), errf := s.errf ||| e.flag }

/-- Clear every sticky flag (R166). -/
def State.clearErrors (s : State) : State := { s with errf := 0 }

/-! ### Enigma elements -/

/-- Slot `i` of the chain (R22). -/
def State.slot (s : State) (i : Nat) : Slot := s.slots.getD i Slot.unfitted

/-- Write slot `i`. -/
def State.setSlot (s : State) (i : Nat) (v : Slot) : State := { s with slots := s.slots.set i v }

/-- Write the whole chain. -/
def State.setSlots (s : State) (l : List Slot) : State := { s with slots := l }

/-- Write the reflector select register (R27). -/
def State.setRefl (s : State) (r : ReflectorSel) : State := { s with refl := r }

/-- The plugboard partner of a letter (R28, R29). -/
def State.partner (s : State) (x : Letter) : Letter := s.plug[x]

/-- Write one entry of the partner table. -/
def State.setPartner (s : State) (x y : Letter) : State := { s with plug := s.plug.set x y }

/-! ### Lorenz elements -/

/-- Wheel `w` (R30). -/
def State.wheel (s : State) (w : WheelIx) : Wheel := s.wheels[w]

/-- Write wheel `w`. -/
def State.setWheel (s : State) (w : WheelIx) (v : Wheel) : State :=
  { s with wheels := s.wheels.set w v }

/-- The pin at a wheel's position, `pins[position]` (R31). -/
def Wheel.pin (v : Wheel) : Bool := v.pins.getD v.pos false

/-- Write that pin (R51, R147). -/
def Wheel.setPin (v : Wheel) (b : Bool) : Wheel := { v with pins := v.pins.set v.pos b }

/-- `CurrentPin(w)` (R31). -/
def State.currentPin (s : State) (w : WheelIx) : Bool := (s.wheel w).pin

/-- Write the log length (R32). -/
def State.setLoglen (s : State) (n : Data) : State := { s with loglen := n }

/-! ### Log memory -/

/-- The byte listed at an index, if any. -/
def logLookup (m : LogMem) (n : Nat) : Option Byte :=
  match m with
  | [] => none
  | (k, v) :: rest => if k = n then some v else logLookup rest n

/-- List byte `v` at an index, in its place by index, in the stead of what stood there. -/
def logInsert (m : LogMem) (n : Nat) (v : Byte) : LogMem :=
  match m with
  | [] => [(n, v)]
  | (k, u) :: rest =>
    if n < k then (n, v) :: (k, u) :: rest
    else if k = n then (n, v) :: rest
    else (k, u) :: logInsert rest n v

/-- The canonical form: indices rise strictly. An unlisted index holds no value, so no listed byte
can equal it. -/
def logCanonical : LogMem → Bool
  | [] => true
  | [_] => true
  | a :: b :: rest => a.1 < b.1 && logCanonical (b :: rest)

/-- One of the two logs (R50). -/
def State.log (s : State) : LogSel → LogMem
  | .pt => s.logPT
  | .ct => s.logCT

/-- Write one of the two logs. -/
def State.setLog (s : State) (l : LogSel) (m : LogMem) : State :=
  match l with
  | .pt => { s with logPT := m }
  | .ct => { s with logCT := m }

/-- The byte a log cell reads as: what was written there, or a free value (log entry 3). -/
def State.logByte (s : State) (l : LogSel) (n : Nat) : Byte :=
  (logLookup (s.log l) n).getD (Config.unwrittenLogByte l n)

/-- `MemRead(log, n, 1)` of R14. An index outside the array does not exist. -/
def State.memRead (s : State) (l : LogSel) (n : Nat) : Except Fault Byte :=
  if n < s.cfg.logDepth then .ok (s.logByte l n) else .error .noLogEntry

/-- `MemWrite(log, n, 1, v)` of R14. An index outside the array does not exist. -/
def State.memWrite (s : State) (l : LogSel) (n : Nat) (v : Byte) : Except Fault State :=
  if n < s.cfg.logDepth then .ok (s.setLog l (logInsert (s.log l) n v)) else .error .noLogEntry

/-- Append one byte to each log and raise the length they share (R33, R141). -/
def State.appendLogs (s : State) (p c : Byte) : Except Fault State :=
  match s.memWrite .pt s.loglen.toNat p with
  | .error f => .error f
  | .ok s1 =>
    match s1.memWrite .ct s.loglen.toNat c with
    | .error f => .error f
    | .ok s2 => .ok (s2.setLoglen (s.loglen + 1))

/-- No entry is left in the logs: `loglen = LOG_DEPTH` (R141). -/
def State.logFull (s : State) : Bool := s.loglen.toNat == s.cfg.logDepth

end Sys2Proof.Machine
end

