-- ==== Sys2Proof/Machine/Control.lean ====
section
/-!
DEFINITION. The control commands (spec 42 R163 to R166).
-/

namespace Sys2Proof.Machine

/-- What a command answers. -/
abbrev Answer := Host.Outcome State Fault Refusal

/-- NOP (R163). -/
def execNop (s : State) : Answer := .next (s.respond 0)

/-- GETERR (R165): the sticky flags, zero-extended. -/
def execGeterr (s : State) : Answer := .next (s.respond (s.errf.setWidth 16))

/-- CLRERR (R166). -/
def execClrerr (s : State) : Answer := .next (s.clearErrors.respond 0)

/-- INFO (R164): 0 answers NROT, 1 answers LOG_DEPTH. -/
def execInfo (idx : Byte) (s : State) : Answer :=
  match idx.toNat with
  | 0 => .next (s.respond (BitVec.ofNat 16 s.cfg.nrot))
  | 1 => .next (s.respond (BitVec.ofNat 16 s.cfg.logDepth))
  | _ => .next (s.raise .index)

end Sys2Proof.Machine
end

