-- ==== Sys2Proof/Machine/Baudot.lean ====
section
/-!
DEFINITION. The Baudot lookup commands (spec 42 R160, R161).
-/

namespace Sys2Proof.Machine

/-- B_ENC (R160): the code of a symbol byte, without case folding, or 0xFFFF. -/
def execBEnc (a : Byte) (s : State) : Answer :=
  match baudotCode s.cfg a with
  | some k => .next (s.respond (k.setWidth 16))
  | none => .next (s.respond 0xFFFF)

/-- B_DEC (R161): the symbol byte of a code, or the sentinel. -/
def execBDec (a : Byte) (s : State) : Answer :=
  match codeOperand a with
  | none => .next (s.raise .value)
  | some k => .next (s.respond ((baudotSymbol s.cfg k).setWidth 16))

end Sys2Proof.Machine
end

