-- ==== Sys2Proof/Machine/Rotors.lean ====
section
/-!
DEFINITION. The datapath of the Enigma unit (spec 40 R91 to R100): stepping with the notch detector
and the double-step latch, the rotor transforms, the reflector and the substitution pipeline.
-/

namespace Sys2Proof.Machine

/-- The catalog entry fitted to a slot: `ROTOR_CATALOG[slot.id]` (R24). -/
def slotRotor (c : Config) (r : Slot) : RotorEntry := c.rotors[r.id]

/-- The notch detector: the slot's position is in its notch set (R92 step 2). -/
def atNotch (c : Config) (r : Slot) : Bool := (slotRotor c r).notches.contains r.pos

/-- The rotor-position counter: one position on, modulo 26 (R91). -/
def Slot.advance (r : Slot) : Slot := { r with pos := r.pos + 1 }

/-- Clear the latch of the first slot of a chain (R92 step 1). -/
def clearFirstLatch : List Slot → List Slot
  | [] => []
  | s :: rest => { s with lat := false } :: rest

/-- The latch of the first slot of a chain is set. -/
def firstLatch : List Slot → Bool
  | [] => false
  | s :: _ => s.lat

/-- `Step(i)` of R92, on the chain from slot `i` on: its first slot is the rotor R, the next one the
successor S, and R has no successor when it is the last. Step 1 consumes the successor's latch, step
2 tests the notch at the position before the advance, step 3 advances. The first argument bounds the
recursion: each call is on a shorter chain (R94), so the chain's length is enough. -/
def stepChain (c : Config) : Nat → List Slot → List Slot
  | 0, chain => chain
  | _ + 1, [] => []
  | n + 1, r :: rest =>
    let rest1 := if firstLatch rest && r.lat then clearFirstLatch (stepChain c n rest) else rest
    if !rest.isEmpty && atNotch c r then
      { r with lat := true }.advance :: stepChain c n rest1
    else
      r.advance :: rest1

/-- `Step(0)`, which one letter calls once; with no slot it does nothing (R93). -/
def State.stepRotors (s : State) : State := s.setSlots (stepChain s.cfg s.slots.length s.slots)

/-- The inverse of a wiring: the letter that the wiring maps to `y` (R25). -/
def wireInv (w : Vector Letter 26) (y : Letter) : Letter :=
  ((List.finRange 26).find? (fun x => w[x] == y)).getD 0

/-- `F_i(x) = (Wire_i[(x - p) mod 26] + p) mod 26` (R96). -/
def rotorForward (c : Config) (r : Slot) (x : Letter) : Letter :=
  (slotRotor c r).wiring[x - r.pos] + r.pos

/-- `Inv_i(x) = (WireInv_i[(x - p) mod 26] + p) mod 26` (R97). -/
def rotorInverse (c : Config) (r : Slot) (x : Letter) : Letter :=
  wireInv (slotRotor c r).wiring (x - r.pos) + r.pos

/-- The letter after the forward pass, the fastest slot first (R99). -/
def forwardPass (c : Config) (slots : List Slot) (x : Letter) : Letter :=
  slots.foldl (fun y r => rotorForward c r y) x

/-- The letter after the backward pass, the slowest slot first (R99). -/
def backwardPass (c : Config) (slots : List Slot) (x : Letter) : Letter :=
  slots.foldr (fun r y => rotorInverse c r y) x

/-- The selected reflector's mapping, `Refl[x]` (R27). -/
def State.reflect (s : State) (x : Letter) : Letter := (s.cfg.reflectors[s.refl.id]).mapping[x]

/-- The substitution pipeline of R99, at the current positions. -/
def State.transform (s : State) (x : Letter) : Letter :=
  s.partner (backwardPass s.cfg s.slots (s.reflect (forwardPass s.cfg s.slots (s.partner x))))

/-- The letter path's check: a reflector is selected and every slot is fitted (R100). -/
def State.enigmaReady (s : State) : Bool := s.refl.fitted && s.slots.all (·.fitted)

end Sys2Proof.Machine
end

