-- ==== Sys2Proof/Machine/Enigma.lean ====
section
/-!
DEFINITION. The Enigma commands (spec 40 R101, R102, R110 to R117, R120 to R122).
-/

namespace Sys2Proof.Machine

/-- End the letter path: substitute at the current positions, with the letter flag set (R101). -/
def State.answerLetter (s : State) (x : Letter) : State :=
  s.respond (enigmaData true (letterByte (s.transform x)))

/-- E_ENTER (R101): a non-letter passes; a letter needs the configuration, then steps the chain,
then is substituted at the stepped positions. -/
def execEEnter (a : Byte) (s : State) : Answer :=
  match enigmaLetter s.cfg a with
  | none => .next (s.respond (enigmaData false a))
  | some x =>
    if s.enigmaReady then .next (s.stepRotors.answerLetter x) else .next (s.raise .nocfg)

/-- E_XFORM (R102): E_ENTER without the step. -/
def execEXform (a : Byte) (s : State) : Answer :=
  match enigmaLetter s.cfg a with
  | none => .next (s.respond (enigmaData false a))
  | some x => if s.enigmaReady then .next (s.answerLetter x) else .next (s.raise .nocfg)

/-- E_SETROT (R110): fit a rotor, at position 0 and with its latch clear. -/
def execESetrot (idx a : Byte) (s : State) : Answer :=
  match slotIndex s.cfg idx, rotorId a with
  | none, _ => .next (s.raise .index)
  | some _, none => .next (s.raise .value)
  | some i, some k => .next ((s.setSlot i ⟨true, k, 0, false⟩).respond 0)

/-- E_GETROT (R111): the fitted rotor's id, or 0xFFFF. -/
def execEGetrot (idx : Byte) (s : State) : Answer :=
  match slotIndex s.cfg idx with
  | none => .next (s.raise .index)
  | some i =>
    .next (s.respond (if (s.slot i).fitted then BitVec.ofNat 16 (s.slot i).id.val else 0xFFFF))

/-- E_SETPOS (R112): the position alone changes. -/
def execESetpos (idx a : Byte) (s : State) : Answer :=
  match slotIndex s.cfg idx, letterOperand a with
  | none, _ => .next (s.raise .index)
  | some _, none => .next (s.raise .value)
  | some i, some p => .next ((s.setSlot i { s.slot i with pos := p }).respond 0)

/-- E_GETPOS (R113). -/
def execEGetpos (idx : Byte) (s : State) : Answer :=
  match slotIndex s.cfg idx with
  | none => .next (s.raise .index)
  | some i => .next (s.respond (BitVec.ofNat 16 (s.slot i).pos.val))

/-- E_SETLAT (R114): the latch alone changes. -/
def execESetlat (idx a : Byte) (s : State) : Answer :=
  match slotIndex s.cfg idx, bitOperand a with
  | none, _ => .next (s.raise .index)
  | some _, none => .next (s.raise .value)
  | some i, some v => .next ((s.setSlot i { s.slot i with lat := v }).respond 0)

/-- E_GETLAT (R115). -/
def execEGetlat (idx : Byte) (s : State) : Answer :=
  match slotIndex s.cfg idx with
  | none => .next (s.raise .index)
  | some i => .next (s.respond ((BitVec.ofBool (s.slot i).lat).setWidth 16))

/-- E_SETREF (R116). -/
def execESetref (a : Byte) (s : State) : Answer :=
  match reflectorId a with
  | none => .next (s.raise .value)
  | some k => .next ((s.setRefl ⟨true, k⟩).respond 0)

/-- E_GETREF (R117): the selected reflector's id, or 0xFFFF. -/
def execEGetref (s : State) : Answer :=
  .next (s.respond (if s.refl.fitted then BitVec.ofNat 16 s.refl.id.val else 0xFFFF))

/-- E_ADDPR (R120): a pair of one letter is an error; a letter already paired makes the command
ignored. -/
def execEAddpr (a b : Byte) (s : State) : Answer :=
  match letterOperand a, letterOperand b with
  | some x, some y =>
    if x = y then .next (s.raise .value)
    else if s.partner x ≠ x ∨ s.partner y ≠ y then .next (s.respond 0)
    else .next (((s.setPartner x y).setPartner y x).respond 1)
  | _, _ => .next (s.raise .value)

/-- E_REMPR (R121): a pair that is not registered makes the command a no-op. -/
def execERempr (a b : Byte) (s : State) : Answer :=
  match letterOperand a, letterOperand b with
  | some x, some y =>
    if x ≠ y ∧ s.partner x = y then .next (((s.setPartner x x).setPartner y y).respond 1)
    else .next (s.respond 0)
  | _, _ => .next (s.raise .value)

/-- E_GETPLG (R122). -/
def execEGetplg (a : Byte) (s : State) : Answer :=
  match letterOperand a with
  | none => .next (s.raise .value)
  | some x => .next (s.respond (BitVec.ofNat 16 (s.partner x).val))

end Sys2Proof.Machine
end

