-- ==== Sys2Proof/Machine/Wheels.lean ====
section
/-!
DEFINITION. The datapath of the Lorenz unit (spec 41 R131 to R138): the chi and psi words, the XOR
combiner and the motor-gated step sequencer.
-/

namespace Sys2Proof.Machine

/-- The five-bit word of five pins, bit `k` from the wheel `first + k` (R132). -/
def State.pinWord (s : State) (w0 w1 w2 w3 w4 : WheelIx) : Code :=
  BitVec.ofBool (s.currentPin w4) ++ BitVec.ofBool (s.currentPin w3) ++
    BitVec.ofBool (s.currentPin w2) ++ BitVec.ofBool (s.currentPin w1) ++
    BitVec.ofBool (s.currentPin w0)

/-- `chiWord[k] = CurrentPin(k)` (R132). -/
def State.chiWord (s : State) : Code := s.pinWord 0 1 2 3 4

/-- `psiWord[k] = CurrentPin(5+k)` (R132). -/
def State.psiWord (s : State) : Code := s.pinWord 5 6 7 8 9

/-- The combiner on codes: `out[k] = bits[k] XOR chiBit XOR (NOT psi pin)` for each k (R132). -/
def State.combine (s : State) (code : Code) : Code := code ^^^ s.chiWord ^^^ ~~~ s.psiWord

/-- `EncryptChar` of R132, given the symbol's code: the symbol of the combined code, or the
sentinel. -/
def State.encryptChar (s : State) (code : Code) : Byte := baudotSymbol s.cfg (s.combine code)

/-- A wheel step: one position on, modulo the wheel's own size (R134, R153). -/
def Wheel.step (size : Nat) (v : Wheel) : Wheel := { v with pos := (v.pos + 1) % size }

/-- Step wheel `w` (R134). -/
def State.stepWheel (s : State) (w : WheelIx) : State :=
  s.setWheel w ((s.wheel w).step s.cfg.wheelSizes[w])

/-- Step each wheel of a list, in order. -/
def State.stepEach (s : State) (ws : List WheelIx) : State := ws.foldl State.stepWheel s

/-- The wheels one StepWheels call steps, in order, by the gate pins read before any wheel moves:
the chi wheels always, the psi wheels when `m0 = 1`, the coarse motor always, the fine motor when
`m1 = 1` (R135). -/
def steppedWheels (m0 m1 : Bool) : List WheelIx :=
  [0, 1, 2, 3, 4] ++ (if m0 then [5, 6, 7, 8, 9] else []) ++ [11] ++ (if m1 then [10] else [])

/-- `StepWheels()` of R135. -/
def State.stepWheels (s : State) : State :=
  s.stepEach (steppedWheels (s.currentPin 10) (s.currentPin 11))

end Sys2Proof.Machine
end

