-- ==== Sys2Proof/Machine/Lorenz.lean ====
section
/-!
DEFINITION. The Lorenz commands (spec 41 R141, R142, R145 to R148, R150 to R152).
-/

namespace Sys2Proof.Machine

/-- Append to both logs, go on as `after` says, and end the command with data `d`; a full log is an
error that changes nothing (R141). -/
def State.logged (s : State) (p c : Byte) (after : State → State) (d : Data) : Answer :=
  if s.logFull then .next (s.raise .logfull)
  else match s.appendLogs p c with
    | .error f => .fault f
    | .ok t => .next ((after t).respond d)

/-- L_PROC (R141): a newline is logged as it is, a non-Baudot byte is dropped, and a symbol is
enciphered under the pre-step wheels, logged, and then the wheels step (R137). -/
def execLProc (a : Byte) (s : State) : Answer :=
  match lorenzClass s.cfg a with
  | .newline =>
    s.logged newlineByte newlineByte (fun t => t) (lorenzData .newline newlineByte)
  | .other => .next (s.respond (lorenzData .dropped 0))
  | .symbol c code =>
    s.logged c (s.encryptChar code) State.stepWheels
      (lorenzData .enciphered (s.encryptChar code))

/-- L_XFORM (R142): L_PROC without the log and the step. -/
def execLXform (a : Byte) (s : State) : Answer :=
  match lorenzClass s.cfg a with
  | .newline => .next (s.respond (lorenzData .newline newlineByte))
  | .other => .next (s.respond (lorenzData .dropped 0))
  | .symbol _ code => .next (s.respond (lorenzData .enciphered (s.encryptChar code)))

/-- L_SETPOS (R145). -/
def execLSetpos (idx a : Byte) (s : State) : Answer :=
  match wheelIndex idx with
  | none => .next (s.raise .index)
  | some w =>
    match wheelPosition s.cfg w a with
    | none => .next (s.raise .value)
    | some p => .next ((s.setWheel w { s.wheel w with pos := p }).respond 0)

/-- L_GETPOS (R146). -/
def execLGetpos (idx : Byte) (s : State) : Answer :=
  match wheelIndex idx with
  | none => .next (s.raise .index)
  | some w => .next (s.respond (BitVec.ofNat 16 (s.wheel w).pos))

/-- L_SETPIN (R147): the pin at the wheel's position. -/
def execLSetpin (idx a : Byte) (s : State) : Answer :=
  match wheelIndex idx, bitOperand a with
  | none, _ => .next (s.raise .index)
  | some _, none => .next (s.raise .value)
  | some w, some v => .next ((s.setWheel w ((s.wheel w).setPin v)).respond 0)

/-- L_GETPIN (R148). -/
def execLGetpin (idx : Byte) (s : State) : Answer :=
  match wheelIndex idx with
  | none => .next (s.raise .index)
  | some w => .next (s.respond ((BitVec.ofBool (s.currentPin w)).setWidth 16))

/-- L_LOGLEN (R150). -/
def execLLoglen (s : State) : Answer := .next (s.respond s.loglen)

/-- L_LOGRD (R151): an index at or above the length is refused with E_LOGRANGE. -/
def execLLogrd (idx : Byte) (n : Data) (s : State) : Answer :=
  match logIndex idx with
  | none => .next (s.raise .index)
  | some l =>
    if s.loglen.toNat ≤ n.toNat then .next (s.raise .logrange)
    else match s.memRead l n.toNat with
      | .error f => .fault f
      | .ok v => .next (s.respond (v.setWidth 16))

/-- L_LOGTRN (R152): truncate both logs; no wheel moves. -/
def execLLogtrn (n : Data) (s : State) : Answer :=
  if s.loglen.toNat < n.toNat then .next (s.raise .logrange)
  else .next ((s.setLoglen n).respond 0)

end Sys2Proof.Machine
end

