-- ==== Sys2Proof/Machine/Dispatch.lean ====
section
/-!
DEFINITION. The meaning of every command: one arm per constructor of Instr (spec 30 R74).
-/

namespace Sys2Proof.Machine

def exec (i : Instr) (s : State) : Host.Outcome State Fault Refusal :=
  match i with
  | .nop => Sys2Proof.Machine.execNop s
  | .geterr => Sys2Proof.Machine.execGeterr s
  | .clrerr => Sys2Proof.Machine.execClrerr s
  | .info idx => Sys2Proof.Machine.execInfo idx s
  | .eEnter a => Sys2Proof.Machine.execEEnter a s
  | .eXform a => Sys2Proof.Machine.execEXform a s
  | .eSetrot idx a => Sys2Proof.Machine.execESetrot idx a s
  | .eGetrot idx => Sys2Proof.Machine.execEGetrot idx s
  | .eSetpos idx a => Sys2Proof.Machine.execESetpos idx a s
  | .eGetpos idx => Sys2Proof.Machine.execEGetpos idx s
  | .eSetlat idx a => Sys2Proof.Machine.execESetlat idx a s
  | .eGetlat idx => Sys2Proof.Machine.execEGetlat idx s
  | .eSetref a => Sys2Proof.Machine.execESetref a s
  | .eGetref => Sys2Proof.Machine.execEGetref s
  | .eAddpr a b => Sys2Proof.Machine.execEAddpr a b s
  | .eRempr a b => Sys2Proof.Machine.execERempr a b s
  | .eGetplg a => Sys2Proof.Machine.execEGetplg a s
  | .lProc a => Sys2Proof.Machine.execLProc a s
  | .lXform a => Sys2Proof.Machine.execLXform a s
  | .lSetpos idx a => Sys2Proof.Machine.execLSetpos idx a s
  | .lGetpos idx => Sys2Proof.Machine.execLGetpos idx s
  | .lSetpin idx a => Sys2Proof.Machine.execLSetpin idx a s
  | .lGetpin idx => Sys2Proof.Machine.execLGetpin idx s
  | .lLoglen => Sys2Proof.Machine.execLLoglen s
  | .lLogrd idx n => Sys2Proof.Machine.execLLogrd idx n s
  | .lLogtrn n => Sys2Proof.Machine.execLLogtrn n s
  | .bEnc a => Sys2Proof.Machine.execBEnc a s
  | .bDec a => Sys2Proof.Machine.execBDec a s

end Sys2Proof.Machine
end

