-- ==== Sys2Proof/Machine/Port.lean ====
section
/-!
DEFINITION. The command and response port (spec 70 R204, R205): what the block samples and what it
does at one rising edge of `clk`, and reset (R190). Also the whole-command view of the port, in
which only the order of the commands counts (R66, R209).
-/

namespace Sys2Proof.Machine

/-- The host drives nothing: every input is 0. -/
def PortIn.idle : PortIn := ⟨false, false, 0, false⟩

/-- The host offers a command. -/
def PortIn.offer (w : Word) : PortIn := ⟨false, true, w, false⟩

/-- The host is ready to take a response. -/
def PortIn.ready : PortIn := ⟨false, false, 0, true⟩

/-- The inputs the block samples at the coming edge. -/
def State.pinsNow (s : State) : PortIn := s.pins.headD PortIn.idle

/-- Those inputs are over once their edge is. -/
def State.dropPins (s : State) : State := { s with pins := s.pins.tail }

/-- The output `cmd_ready`: 0 from the acceptance of a command until its response is taken (R204).
DESIGN CHOICE, unsafe for a claim about an edge with `rst` asserted (log entry 16): the output is that
of the state alone and does not look at `rst`; R204 leaves open what it shows there. -/
def State.cmdReady (s : State) : Bool := s.rsp.isNone

/-- The output `rsp_valid`: the response is offered once its latency has passed (R204). DESIGN CHOICE,
unsafe for a claim about an edge with `rst` asserted (log entry 16): it does not look at `rst` either. -/
def State.rspValid (s : State) : Bool := s.rsp.isSome && s.wait == 0

/-- The edge at which `rst` is asserted (R190): every element of the block takes its reset value and
a command in flight is abandoned. The configuration stays, and so does what lies outside the block:
the host's coming inputs, the coming latencies and the responses it has taken (log entry 10). -/
def State.hardReset (s : State) : State :=
  { State.resetFor s.cfg with pins := s.pins, latencies := s.latencies, taken := s.taken }

/-- Set how long the command now accepted takes: one edge, and as many more as CMD_LATENCY gives it
(R205). -/
def State.startLatency (s : State) : State :=
  { s with wait := s.latencies.headD 0, latencies := s.latencies.tail }

/-- One edge of the latency passes. -/
def State.countDown (s : State) : State := { s with wait := s.wait - 1 }

/-- The host takes the response in flight. -/
def State.takeResponse (s : State) (r : Word) : State :=
  { s with rsp := none, taken := r :: s.taken }

/-- A word that is no command raises its decode error (R171). -/
def decodeStatus : DecodeError → ErrorStatus
  | .illegal => .illegal
  | .rsvd => .rsvd

/-- Run one command word to completion: decode it, then give it to its rule (R60, R171). -/
def runWord (w : Word) (s : State) : Answer :=
  match decode w with
  | .error e => .next (s.raise (decodeStatus e))
  | .ok i => exec i s

/-- One edge with the given inputs (R204): reset, or the acceptance of an offered command, or an
edge of a command's latency, or the taking of a response, or nothing. DESIGN CHOICE, unsafe for a
claim about the elements while a command is in flight (log entry 17): every state write of a command
lands at the edge that accepts it, before its latency runs; R60 asks only that they are done before
the next command is accepted. -/
def State.edge (s : State) (p : PortIn) : Answer :=
  if p.rst then .next s.hardReset
  else match s.rsp with
    | none => if p.cmdValid then runWord p.cmd s.startLatency else .next s
    | some r =>
      if s.wait = 0 then
        if p.rspReady then .next (s.takeResponse r) else .next s
      else .next s.countDown

/-- The host takes the response of the command that gave this answer. -/
def takeAnswer : Answer → Answer
  | .next t =>
    match t.rsp with
    | some r => .next (t.takeResponse r)
    | none => .next t
  | .fault f => .fault f
  | .refused r => .refused r

/-- Run one command word and take its response at once, whatever its latency: the block as a
function of state and command word (R209). -/
def runCommand (w : Word) (s : State) : Answer := takeAnswer (runWord w s)

/-- Run a sequence of command words in issue order (R66). -/
def runCommands : List Word → State → Answer
  | [], s => .next s
  | w :: ws, s =>
    match runCommand w s with
    | .next t => runCommands ws t
    | .fault f => .fault f
    | .refused r => .refused r

end Sys2Proof.Machine
end

