-- ==== Sys2Proof/Machine/Step.lean ====
section
/-!
DEFINITION. One step: one rising edge of `clk` (spec 70 R204), on an instance whose configuration is
well-formed (00 R10).
-/

namespace Sys2Proof.Machine

/-- One edge, with the inputs the host drives at it. An ill-formed configuration is refused (R10). -/
def step (s : State) : Host.Outcome State Fault Refusal :=
  if s.cfg.wf then s.dropPins.edge s.pinsNow else .refused .illFormedConfig

/-- The state in which the host offers the table's word at the coming edge, and no command is in
flight, so that the block accepts it there (R204; log entry 8). -/
def State.withFetchWord (s : State) (nbits w : Nat) : State :=
  { s with rsp := none, wait := 0, pins := PortIn.offer (tableWord nbits w) :: s.pins }

end Sys2Proof.Machine
end

