-- ==== Sys2Proof/Machine/Pseudo.lean ====
section
/-!
DEFINITION. The pseudo-instructions (spec 30 R85): host-side macros, each a list of commands.
-/

namespace Sys2Proof.Machine

/-- A small number as an 8-bit field. -/
def field8 (n : Nat) : Byte := BitVec.ofNat 8 n

/-- `ENCODE "s"`: E_ENTER of each byte, in order (R85, R66). -/
def pseudoEncode (text : List Byte) : List Instr := text.map .eEnter

/-- `LPROCESS "s"`: L_PROC of each byte, in order. -/
def pseudoLprocess (text : List Byte) : List Instr := text.map .lProc

/-- `SETKEY r0, r1, ..., p0, p1, ...`: fit every rotor, then set every position, since E_SETROT
zeroes the position (R110, R194). -/
def pseudoSetkey (rotors : List (Fin 8)) (positions : List Letter) : List Instr :=
  rotors.zipIdx.map (fun (r, i) => .eSetrot (field8 i) (field8 r.val)) ++
    positions.zipIdx.map (fun (p, i) => .eSetpos (field8 i) (field8 p.val))

/-- `LOADPINS w, "bits"`: move to each position and write its pin, then return to position 0. -/
def pseudoLoadpins (w : WheelIx) (bits : List Bool) : List Instr :=
  bits.zipIdx.flatMap (fun (v, j) =>
      [.lSetpos (field8 w.val) (field8 j), .lSetpin (field8 w.val) (if v then 1 else 0)]) ++
    [.lSetpos (field8 w.val) 0]

/-- `ESNAP`: read the position and the latch of each of the `n` slots, in the order of program P5
(95_test_vectors.md): every position, then every latch. -/
def pseudoEsnap (n : Nat) : List Instr :=
  (List.range n).map (fun i => .eGetpos (field8 i)) ++
    (List.range n).map (fun i => .eGetlat (field8 i))

/-- `ERESTORE` from a snapshot: write the position and the latch of each slot. -/
def pseudoErestore (snap : List (Letter × Bool)) : List Instr :=
  snap.zipIdx.flatMap fun (v, i) =>
    [.eSetpos (field8 i) (field8 v.1.val), .eSetlat (field8 i) (if v.2 then 1 else 0)]

/-- `LSNAP`: read the position of each wheel, then the log length. -/
def pseudoLsnap : List Instr :=
  (List.range 12).map (fun w => .lGetpos (field8 w)) ++ [.lLoglen]

/-- `LRESTORE` from a snapshot: write the position of each wheel, then truncate the logs. -/
def pseudoLrestore (positions : List Nat) (len : Data) : List Instr :=
  positions.zipIdx.map (fun (p, w) => .lSetpos (field8 w) (field8 p)) ++ [.lLogtrn len]

/-- Issue a list of commands in order, taking each response before the next (R66). -/
def issueAll (is : List Instr) (s : State) : Answer := runCommands (is.map encode) s

/-- What ESNAP reads of the Enigma unit: the position and the latch of every slot (R196). -/
def State.enigmaSnapshot (s : State) : List (Letter × Bool) := s.slots.map fun r => (r.pos, r.lat)

/-- What LSNAP reads of the wheels: every position (R196). -/
def State.wheelSnapshot (s : State) : List Nat := s.wheels.toList.map Wheel.pos

end Sys2Proof.Machine
end

