-- ==== Sys2Proof/Safety.lean ====
section
/-!
DEFINITION. What claims are stated in: the legal response (spec 30 R72), the invariant of the
machine, and the classes of commands the spec's whole-machine rules speak of. Also the stepping
algorithm of 40 R92 written on the indexed array, as the spec writes it and with the calls it makes,
for the chain form to be held against.
-/

namespace Sys2Proof

/-- The read class of R64. -/
def Instr.isRead : Instr → Bool
  | .eGetrot _ | .eGetpos _ | .eGetlat _ | .eGetref | .eGetplg _ | .eXform _ | .lGetpos _
  | .lGetpin _ | .lLoglen | .lLogrd _ _ | .lXform _ | .bEnc _ | .bDec _ | .info _ | .geterr
  | .nop => true
  | _ => false

/-- The Enigma group of R73. -/
def Instr.isEnigma : Instr → Bool
  | .eEnter _ | .eXform _ | .eSetrot _ _ | .eGetrot _ | .eSetpos _ _ | .eGetpos _ | .eSetlat _ _
  | .eGetlat _ | .eSetref _ | .eGetref | .eAddpr _ _ | .eRempr _ _ | .eGetplg _ => true
  | _ => false

/-- The Lorenz group of R73. -/
def Instr.isLorenz : Instr → Bool
  | .lProc _ | .lXform _ | .lSetpos _ _ | .lGetpos _ | .lSetpin _ _ | .lGetpin _ | .lLoglen
  | .lLogrd _ _ | .lLogtrn _ => true
  | _ => false

namespace Machine

/-- A response word as R72 lays it out: a status 0..7 (R170), bits 23:16 zero, and data 0 when the
status is not OK. -/
def legalResponse (r : Word) : Prop :=
  (responseStatus r).toNat ≤ 7 ∧ r.extractLsb' 16 8 = 0#8 ∧
    (responseStatus r ≠ 0 → responseData r = 0)

/-- The invariant of the machine: what the spec says of every state a run reaches. -/
structure State.Inv (s : State) : Prop where
  /-- The configuration is well-formed (00 R10). -/
  cfg_wellFormed : s.cfg.WellFormed
  /-- The chain has exactly NROT slots (R22). -/
  chain_length : s.slots.length = s.cfg.nrot
  /-- `plug[plug[x]] = x` (R28, R123). -/
  plug_involutive : ∀ x : Letter, s.partner (s.partner x) = x
  /-- Each wheel has as many pins as its size (R31). -/
  pins_length : ∀ w : WheelIx, (s.wheel w).pins.length = s.cfg.wheelSizes[w]
  /-- Each wheel's position is below its size (R31). -/
  wheel_in_range : ∀ w : WheelIx, (s.wheel w).pos < s.cfg.wheelSizes[w]
  /-- `0 ≤ loglen ≤ LOG_DEPTH` (R32). -/
  loglen_le : s.loglen.toNat ≤ s.cfg.logDepth
  /-- Both logs are in canonical form. -/
  logs_canonical : ∀ l : LogSel, logCanonical (s.log l) = true
  /-- No cell stands at or above LOG_DEPTH (R50). -/
  logs_in_range : ∀ (l : LogSel) (n : Nat), logLookup (s.log l) n ≠ none → n < s.cfg.logDepth
  /-- Every cell below `loglen` has been written (R32, R33). -/
  logs_written : ∀ (l : LogSel) (n : Nat), n < s.loglen.toNat → logLookup (s.log l) n ≠ none
  /-- The response in flight is a legal one (R72). -/
  response_legal : ∀ r : Word, s.rsp = some r → legalResponse r
  /-- With no command in flight no latency is running (R204). -/
  idle_not_waiting : s.rsp = none → s.wait = 0

/-- `Step(i)` of R92 as the spec writes it, on the array of slots by index, and with it the slots
that this call and the calls it makes step, in the order the calls begin (the calls R94 counts). The
notch test is the spec's own, `slot[i].pos ∈ ROTOR_CATALOG[slot[i].id].notches` (R24). The first
argument bounds the recursion, as in `stepChain`. -/
def stepAt (c : Config) : Nat → Nat → List Slot → List Nat × List Slot
  | 0, _, slots => ([], slots)
  | n + 1, i, slots =>
    let hasS := decide (i + 1 < slots.length)
    let at1 (l : List Slot) (k : Nat) : Slot := l.getD k Slot.unfitted
    let (calls1, slots1) :=
      if hasS && (at1 slots (i + 1)).lat && (at1 slots i).lat then
        let (calls, t) := stepAt c n (i + 1) slots
        (calls, t.set (i + 1) { at1 t (i + 1) with lat := false })
      else ([], slots)
    let (calls2, slots2) :=
      if hasS && (c.rotors[(at1 slots1 i).id]).notches.contains (at1 slots1 i).pos then
        let (calls, t) := stepAt c n (i + 1) slots1
        (calls, t.set i { at1 t i with lat := true })
      else ([], slots1)
    (i :: (calls1 ++ calls2), slots2.set i { at1 slots2 i with pos := (at1 slots2 i).pos + 1 })

/-- The output bytes the host has taken, in order: bits 7:0 of each response (R85). -/
def State.outputs (s : State) : List Byte := s.taken.reverse.map fun r => r.extractLsb' 0 8

end Machine

end Sys2Proof
end

