-- ==== Sys2Proof/Certificates/Slice0/Obligations.lean ====
section
/-!
DEFINITION. The statements for the provers: each formalises one or more numbered rules of the spec,
named in its docstring. A command's own statement gives its encoding, every error it can raise and
its effect as one equation on the whole state, which is its frame as well.
-/

open Sys2Proof Sys2Proof.Machine

/-! ### Encoding -/

/-- R70, R74, R83: the decoder gives back every command from its own word, whatever its operands. -/
def Obligations.DecodeOfEncodeIsIdentity : Prop :=
  ∀ i : Instr, decode (encode i) = .ok i

/-- R75, R83: a word that decodes to a command is that command's word, so no two words decode to one
command and no bit of a word is ignored. -/
def Obligations.EncodeOfDecodeIsIdentity : Prop :=
  ∀ (w : Word) (i : Instr), decode w = .ok i → encode i = w

/-- R75: a word decodes to the command of a row exactly when `C AND mask = match`, with the match and
mask columns of R74 written out; and an assigned opcode with a nonzero unused field raises E_RSVD
and changes nothing but its error flag. -/
def Obligations.DecodeFollowsMatchAndMask : Prop :=
  (∀ (w : Word) (i : Instr),
      decode w = .ok i ↔
        ∃ r ∈ opcodeTable, w &&& r.mask = r.pattern ∧ r.build (Fields.ofWord w) = i) ∧
    (∀ (w : Word) (s : State) (r : OpRow), r ∈ opcodeTable → r.op = (Fields.ofWord w).op →
      w &&& r.mask ≠ r.pattern → runWord w s = .next (s.raise .rsvd)) ∧
    opcodeTable.map (fun r => (r.mnemonic, r.pattern, r.mask)) =
      [("NOP", 0x00000000#32, 0xFFFFFFFF#32), ("GETERR", 0x01000000#32, 0xFFFFFFFF#32),
        ("CLRERR", 0x02000000#32, 0xFFFFFFFF#32), ("INFO", 0x03000000#32, 0xFF00FFFF#32),
        ("E_ENTER", 0x10000000#32, 0xFFFFFF00#32), ("E_XFORM", 0x11000000#32, 0xFFFFFF00#32),
        ("E_SETROT", 0x12000000#32, 0xFF00FF00#32), ("E_GETROT", 0x13000000#32, 0xFF00FFFF#32),
        ("E_SETPOS", 0x14000000#32, 0xFF00FF00#32), ("E_GETPOS", 0x15000000#32, 0xFF00FFFF#32),
        ("E_SETLAT", 0x16000000#32, 0xFF00FF00#32), ("E_GETLAT", 0x17000000#32, 0xFF00FFFF#32),
        ("E_SETREF", 0x18000000#32, 0xFFFFFF00#32), ("E_GETREF", 0x19000000#32, 0xFFFFFFFF#32),
        ("E_ADDPR", 0x1A000000#32, 0xFFFF0000#32), ("E_REMPR", 0x1B000000#32, 0xFFFF0000#32),
        ("E_GETPLG", 0x1C000000#32, 0xFFFFFF00#32), ("L_PROC", 0x20000000#32, 0xFFFFFF00#32),
        ("L_XFORM", 0x21000000#32, 0xFFFFFF00#32), ("L_SETPOS", 0x22000000#32, 0xFF00FF00#32),
        ("L_GETPOS", 0x23000000#32, 0xFF00FFFF#32), ("L_SETPIN", 0x24000000#32, 0xFF00FF00#32),
        ("L_GETPIN", 0x25000000#32, 0xFF00FFFF#32), ("L_LOGLEN", 0x26000000#32, 0xFFFFFFFF#32),
        ("L_LOGRD", 0x27000000#32, 0xFF000000#32), ("L_LOGTRN", 0x28000000#32, 0xFFFF0000#32),
        ("B_ENC", 0x30000000#32, 0xFFFFFF00#32), ("B_DEC", 0x31000000#32, 0xFFFFFF00#32)]

/-- R83: every word is a command, an E_ILLEGAL word (its opcode heads no row) or an E_RSVD word (its
opcode heads a row that does not match it), and no two rows match one word. -/
def Obligations.DecodeIsTotalInThreeWays : Prop :=
  (∀ w : Word, decode w = .error .illegal ↔ ∀ r ∈ opcodeTable, r.op ≠ (Fields.ofWord w).op) ∧
    (∀ w : Word, decode w = .error .rsvd ↔
      ∃ r ∈ opcodeTable, r.op = (Fields.ofWord w).op ∧ w &&& r.mask ≠ r.pattern) ∧
    (∀ w : Word, (∃ i, decode w = .ok i) ↔ ∃ r ∈ opcodeTable, w &&& r.mask = r.pattern) ∧
    opcodeTable.Pairwise fun r q => ∀ w : Word, ¬(w &&& r.mask = r.pattern ∧ w &&& q.mask = q.pattern)

/-- R86, and the bytes of a word on a byte-wide adapter (R62): byte 0 is bits 7:0. -/
def Obligations.WorkedEncodingsDecode : Prop :=
  decode 0x10000041 = .ok (.eEnter 0x41) ∧ decode 0x14010004 = .ok (.eSetpos 1 4) ∧
    decode 0x1A000100 = .ok (.eAddpr 0 1) ∧ decode 0x240B0001 = .ok (.lSetpin 11 1) ∧
    decode 0x27010002 = .ok (.lLogrd 1 2) ∧ decode 0x3100001B = .ok (.bDec 27) ∧
    decode 0x7F000000 = .error .illegal ∧ decode 0x00000001 = .error .rsvd ∧
    decode 0x03010000 = .ok (.info 1) ∧
    wordOfBytes [0x04, 0x00, 0x01, 0x14] = some 0x14010004

/-! ### Responses and errors -/

/-- R72: every command word that runs leaves one response with a status 0..7, bits 23:16 zero, and
data 0 when the status is not OK; and a command that ends with `respond(d)` (R15) leaves status 0 and
its result `d` as the data. -/
def Obligations.EveryCommandAnswersOneLegalResponse : Prop :=
  (∀ (w : Word) (s t : State), runWord w s = .next t → ∃ r, t.rsp = some r ∧ legalResponse r) ∧
    ∀ (s : State) (d : Data), s.respond d = { s with rsp := some (0x0000#16 ++ d) }

/-- R173, R174: a command that ends with an error code writes nothing but its response, whose data is
0, and its own sticky flag, bit code-1; every other flag stays. -/
def Obligations.ErrorsAreAllOrNothing : Prop :=
  (∀ (w : Word) (s t : State) (r : Word), runWord w s = .next t → t.rsp = some r →
      responseStatus r ≠ 0 →
      ∃ e : ErrorStatus, responseStatus r = e.code ∧
        t = { s with rsp := some (e.code ++ 0#24), errf := s.errf ||| 1#7 <<< (e.code.toNat - 1) }) ∧
    (∀ (s : State) (e : ErrorStatus) (k : Nat), k < 7 →
      (s.raise e).errf.getLsbD k = (s.errf.getLsbD k || decide (e.code.toNat = k + 1)))

/-- R80: a word whose opcode is unassigned raises E_ILLEGAL whatever its other fields hold; R171: the
opcode is checked before the unused fields, and both before the command's own rule. -/
def Obligations.UnassignedOpcodesRaiseIllegal : Prop :=
  ∀ (w : Word) (s : State), (∀ r ∈ opcodeTable, r.op ≠ (Fields.ofWord w).op) →
    runWord w s =
      .next { s with rsp := some 0x01000000#32, errf := s.errf ||| 0b0000001#7 }

/-- R77: an index out of its range raises E_INDEX, whatever the other operands are (R172), and a
legal index never does. -/
def Obligations.IndexOutOfRangeRaisesIndex : Prop :=
  ∀ (i : Instr) (s : State),
    (i.indexLegal s.cfg = false →
      exec i s = .next { s with rsp := some 0x03000000#32, errf := s.errf ||| 0b0000100#7 }) ∧
    (i.indexLegal s.cfg = true → ∀ t, exec i s = .next t → t.rsp ≠ some 0x03000000#32)

/-- R78, R170, R172: a value operand out of its range raises E_VALUE when the index is legal, and
legal operands never do. -/
def Obligations.ValueOutOfRangeRaisesValue : Prop :=
  ∀ (i : Instr) (s : State), i.indexLegal s.cfg = true →
    (i.valueLegal s.cfg = false →
      exec i s = .next { s with rsp := some 0x04000000#32, errf := s.errf ||| 0b0001000#7 }) ∧
    (i.valueLegal s.cfg = true → ∀ t, exec i s = .next t → t.rsp ≠ some 0x04000000#32)

/-! ### The control commands -/

/-- R163, R165, R166: NOP, GETERR and CLRERR in full. A nonzero bit in 23:0 makes any of them raise
E_RSVD, and then CLRERR clears nothing. -/
def Obligations.ControlCommandsDoTheirRule : Prop :=
  encode .nop = 0x00000000#32 ∧ encode .geterr = 0x01000000#32 ∧ encode .clrerr = 0x02000000#32 ∧
    (∀ s : State, exec .nop s = .next { s with rsp := some 0x00000000#32 }) ∧
    (∀ s : State, exec .geterr s = .next { s with rsp := some (s.errf.setWidth 32) }) ∧
    (∀ s : State, exec .clrerr s = .next { s with errf := 0, rsp := some 0x00000000#32 }) ∧
    (∀ (s : State) (w : Word), (Fields.ofWord w).op.toNat ≤ 2 → w.extractLsb' 0 24 ≠ 0#24 →
      runWord w s =
        .next { s with rsp := some 0x02000000#32, errf := s.errf ||| 0b0000010#7 })

/-- R164: INFO answers NROT or LOG_DEPTH, or raises E_INDEX; and no command changes the values. -/
def Obligations.InfoReadsTheParameters : Prop :=
  (∀ idx : Byte, encode (.info idx) = 0x03#8 ++ idx ++ 0x0000#16) ∧
    (∀ s : State, exec (.info 0) s = .next (s.respond (BitVec.ofNat 16 s.cfg.nrot))) ∧
    (∀ s : State, exec (.info 1) s = .next (s.respond (BitVec.ofNat 16 s.cfg.logDepth))) ∧
    (∀ (s : State) (idx : Byte), 1 < idx.toNat → exec (.info idx) s = .next (s.raise .index)) ∧
    (∀ (i : Instr) (s t : State), exec i s = .next t → t.cfg = s.cfg)

/-! ### The Enigma cipher -/

/-- R90: which bytes are letters, and which letter. -/
def Obligations.EnigmaLettersAreClassified : Prop :=
  ∀ (c : Config) (a : Byte) (x : Letter),
    enigmaLetter c a = some x ↔
      a.toNat = 0x41 + x.val ∨ (c.foldLower = true ∧ a.toNat = 0x61 + x.val)

/-- R101: E_ENTER passes a non-letter, raises E_NOCFG (status 0x05, errf bit 4) for a letter while the
reflector or a slot is unconfigured, and otherwise steps the chain once and substitutes at the stepped
positions. -/
def Obligations.EnterStepsThenSubstitutes : Prop :=
  ∀ (s : State) (a : Byte),
    encode (.eEnter a) = 0x100000#24 ++ a ∧
    (enigmaLetter s.cfg a = none → exec (.eEnter a) s = .next (s.respond (a.setWidth 16))) ∧
    (∀ x : Letter, enigmaLetter s.cfg a = some x →
      ((s.refl.fitted = false ∨ ∃ r ∈ s.slots, r.fitted = false) →
        exec (.eEnter a) s =
          .next { s with rsp := some 0x05000000#32, errf := s.errf ||| 0b0010000#7 }) ∧
      ((s.refl.fitted = true ∧ ∀ r ∈ s.slots, r.fitted = true) →
        exec (.eEnter a) s =
          .next (({ s with slots := stepChain s.cfg s.slots.length s.slots }).respond
            (BitVec.ofNat 16 (0x0100 + 0x41 +
              (({ s with slots := stepChain s.cfg s.slots.length s.slots }).transform x).val)))))

/-- R102: E_XFORM is E_ENTER without the step; it changes no state, and repeating it gives the same
response. -/
def Obligations.XformSubstitutesUnstepped : Prop :=
  ∀ (s : State) (a : Byte),
    encode (.eXform a) = 0x110000#24 ++ a ∧
    (enigmaLetter s.cfg a = none → exec (.eXform a) s = .next (s.respond (a.setWidth 16))) ∧
    (∀ x : Letter, enigmaLetter s.cfg a = some x →
      ((s.refl.fitted = false ∨ ∃ r ∈ s.slots, r.fitted = false) →
        exec (.eXform a) s =
          .next { s with rsp := some 0x05000000#32, errf := s.errf ||| 0b0010000#7 }) ∧
      ((s.refl.fitted = true ∧ ∀ r ∈ s.slots, r.fitted = true) →
        exec (.eXform a) s =
          .next (s.respond (BitVec.ofNat 16 (0x0100 + 0x41 + (s.transform x).val))))) ∧
    (∀ t, exec (.eXform a) s = .next t → exec (.eXform a) t = .next t)

/-- R92, R24: the chain form of Step that the meaning runs is the spec's three-step algorithm on the
array of slots, from slot 0, with the notch test on the rotor catalog and the pre-advance position
written out in `stepAt`. -/
def Obligations.ChainStepRefinesIndexedStep : Prop :=
  ∀ (c : Config) (l : List Slot), stepChain c l.length l = (stepAt c l.length 0 l).2

/-- R94: each call `Step(i)` calls `Step(i+1)` at most twice and never a lower slot. One letter makes
at most `2^NROT - 1` calls of Step, calls slot 0 once and slot i at most `2^i` times, and each slot's
position is its old one advanced by the number of its calls. The calls are those the indexed
algorithm of R92 makes on its way to the chain the meaning leaves. -/
def Obligations.SlotAdvancesAreBounded : Prop :=
  (∀ (c : Config) (n i : Nat) (l : List Slot),
      (∀ j ∈ (stepAt c n i l).1, i ≤ j) ∧ (stepAt c n i l).1.count (i + 1) ≤ 2) ∧
    ∀ (c : Config) (l : List Slot),
      (stepAt c l.length 0 l).2 = stepChain c l.length l ∧
      (stepAt c l.length 0 l).1.length ≤ 2 ^ l.length - 1 ∧
      (∀ j ∈ (stepAt c l.length 0 l).1, j < l.length) ∧
      (l ≠ [] → (stepAt c l.length 0 l).1.count 0 = 1) ∧
      ∀ i < l.length,
        (stepAt c l.length 0 l).1.count i ≤ 2 ^ i ∧
        ((stepChain c l.length l).getD i Slot.unfitted).pos.val =
          ((l.getD i Slot.unfitted).pos.val + (stepAt c l.length 0 l).1.count i) % 26

/-- R95: the double-step anomaly, where neither rotor's next position is a notch as well (the rule's
own condition for 'slot 2 advances once'). The notch sets are those of the rotor catalog (R24). -/
def Obligations.DoubleStepAnomaly : Prop :=
  ∀ (c : Config) (r0 r1 r2 : Slot), r0.lat = false → r1.lat = false → r2.lat = false →
    r0.pos ∈ (c.rotors[r0.id]).notches → r1.pos ∈ (c.rotors[r1.id]).notches →
    r0.pos + 1 ∉ (c.rotors[r0.id]).notches → r1.pos + 1 ∉ (c.rotors[r1.id]).notches →
    stepChain c 3 [r0, r1, r2] =
        [{ r0 with pos := r0.pos + 1, lat := true }, { r1 with pos := r1.pos + 1, lat := true },
          { r2 with pos := r2.pos + 1 }] ∧
      stepChain c 3 (stepChain c 3 [r0, r1, r2]) =
        [{ r0 with pos := r0.pos + 2, lat := true }, { r1 with pos := r1.pos + 2 },
          { r2 with pos := r2.pos + 1 }]

/-- R39, R40: a step from a notch position of the fitted rotor (R24) sets slot 0's latch where there
is a successor (R92), and then no command but E_SETLAT or E_SETROT on slot 0 clears it; and stepping
never sets the last slot's latch. -/
def Obligations.FirstLatchStaysAndLastLatchIsNotSet : Prop :=
  (∀ (i : Instr) (s t : State), exec i s = .next t → (s.slot 0).lat = true →
      (t.slot 0).lat = true ∨ (∃ a, i = .eSetlat 0 a) ∨ ∃ a, i = .eSetrot 0 a) ∧
    (∀ (c : Config) (r r' : Slot) (rest : List Slot), r.pos ∈ (c.rotors[r.id]).notches →
      ∃ l, stepChain c (rest.length + 2) (r :: r' :: rest) =
        { r with pos := r.pos + 1, lat := true } :: l) ∧
    (∀ (c : Config) (l : List Slot) (r : Slot), r.lat = false →
      ∃ l' r', stepChain c (l.length + 1) (l ++ [r]) = l' ++ [r'] ∧ r'.lat = false)

/-- R96, R97, R98: the rotor transforms are the spec's formulas, computed on natural numbers, with the
inverse wiring of R25; and they undo each other at any position. For a wiring that is a bijection
(R10). -/
def Obligations.RotorTransformsFollowFormulasAndUndo : Prop :=
  ∀ (c : Config) (r : Slot) (x : Letter), (∀ k : Fin 8, c.rotors[k].IsBijection) →
    (rotorForward c r x).val =
        (((c.rotors[r.id]).wiring[(x.val + 26 - r.pos.val) % 26]'(Nat.mod_lt _ (by omega))).val +
          r.pos.val) % 26 ∧
      (∃ v : Letter, (c.rotors[r.id]).wiring[v].val = (x.val + 26 - r.pos.val) % 26 ∧
        (rotorInverse c r x).val = (v.val + r.pos.val) % 26) ∧
      rotorInverse c r (rotorForward c r x) = x ∧ rotorForward c r (rotorInverse c r x) = x

/-- R99, R103: the pipeline goes through the plugboard, the chain from its first slot to its last, the
reflector, the chain back from its last slot to its first, and the plugboard; and with the state
unchanged it is an involution, so an E_XFORM fed the output of an E_XFORM returns the first's
letter. -/
def Obligations.SubstitutionPipelineIsAnInvolution : Prop :=
  (∀ (s : State) (x : Letter), s.transform x =
      s.plug[backwardPass s.cfg s.slots ((s.cfg.reflectors[s.refl.id]).mapping[
        forwardPass s.cfg s.slots s.plug[x]])]) ∧
    (∀ (c : Config) (r : Slot) (rest : List Slot) (x : Letter),
      forwardPass c [] x = x ∧ backwardPass c [] x = x ∧
      forwardPass c (r :: rest) x = forwardPass c rest (rotorForward c r x) ∧
      backwardPass c (r :: rest) x = rotorInverse c r (backwardPass c rest x)) ∧
    (∀ s : State, s.Inv →
      (∀ x : Letter, s.transform (s.transform x) = x) ∧
      (s.enigmaReady = true → ∀ x : Letter, ∃ y : Letter,
        exec (.eXform (letterByte x)) s = .next (s.respond (enigmaData true (letterByte y))) ∧
        exec (.eXform (letterByte y)) s = .next (s.respond (enigmaData true (letterByte x)))))

/-- R104: with a reflector that has no fixed point, as every default reflector, no letter enciphers to
itself. -/
def Obligations.NoLetterEnciphersToItself : Prop :=
  (∀ s : State, s.Inv → (∀ x : Letter, s.reflect x ≠ x) → ∀ x : Letter, s.transform x ≠ x) ∧
    ∀ (k : Fin 3) (x : Letter), (defaultReflectors[k]).mapping[x] ≠ x

/-- R105: one block restored to the state it started in deciphers its own ciphertext, byte for byte
but for the case of letters (R201), and its rotors end where they ended. -/
def Obligations.EnciphermentIsReciprocal : Prop :=
  ∀ (s : State) (text : List Byte), s.Inv → s.enigmaReady = true → s.taken = [] →
    ∃ t u, issueAll (pseudoEncode text) s = .next t ∧
      issueAll (pseudoEncode t.outputs) s = .next u ∧
      u.outputs = text.map (enigmaFold s.cfg) ∧ u.slots = t.slots

/-! ### Enigma set-up and plugboard -/

/-- R110: E_SETROT. -/
def Obligations.SetrotFitsAFreshRotor : Prop :=
  ∀ (s : State) (idx a : Byte),
    encode (.eSetrot idx a) = 0x12#8 ++ idx ++ 0x00#8 ++ a ∧
    (s.cfg.nrot ≤ idx.toNat → exec (.eSetrot idx a) s = .next (s.raise .index)) ∧
    (idx.toNat < s.cfg.nrot → 7 < a.toNat → exec (.eSetrot idx a) s = .next (s.raise .value)) ∧
    (∀ k : Fin 8, idx.toNat < s.cfg.nrot → a.toNat = k.val →
      exec (.eSetrot idx a) s =
        .next (({ s with slots := s.slots.set idx.toNat ⟨true, k, 0, false⟩ }).respond 0))

/-- R112, R114: E_SETPOS writes a slot's position alone, E_SETLAT its latch alone. -/
def Obligations.SetposAndSetlatWriteOneField : Prop :=
  ∀ (s : State) (idx a : Byte),
    encode (.eSetpos idx a) = 0x14#8 ++ idx ++ 0x00#8 ++ a ∧
    encode (.eSetlat idx a) = 0x16#8 ++ idx ++ 0x00#8 ++ a ∧
    (s.cfg.nrot ≤ idx.toNat → exec (.eSetpos idx a) s = .next (s.raise .index) ∧
      exec (.eSetlat idx a) s = .next (s.raise .index)) ∧
    (idx.toNat < s.cfg.nrot → 25 < a.toNat → exec (.eSetpos idx a) s = .next (s.raise .value)) ∧
    (idx.toNat < s.cfg.nrot → 1 < a.toNat → exec (.eSetlat idx a) s = .next (s.raise .value)) ∧
    (∀ (r : Slot) (p : Letter), idx.toNat < s.cfg.nrot → s.slots[idx.toNat]? = some r →
      a.toNat = p.val → exec (.eSetpos idx a) s =
        .next (({ s with slots := s.slots.set idx.toNat { r with pos := p } }).respond 0)) ∧
    (∀ (r : Slot) (v : Bool), idx.toNat < s.cfg.nrot → s.slots[idx.toNat]? = some r →
      a.toNat = v.toNat → exec (.eSetlat idx a) s =
        .next (({ s with slots := s.slots.set idx.toNat { r with lat := v } }).respond 0))

/-- R111, R113, R115: E_GETROT, E_GETPOS and E_GETLAT read a slot and change nothing. -/
def Obligations.SlotReadsAnswerTheirField : Prop :=
  ∀ (s : State) (idx : Byte),
    encode (.eGetrot idx) = 0x13#8 ++ idx ++ 0x0000#16 ∧
    encode (.eGetpos idx) = 0x15#8 ++ idx ++ 0x0000#16 ∧
    encode (.eGetlat idx) = 0x17#8 ++ idx ++ 0x0000#16 ∧
    (s.cfg.nrot ≤ idx.toNat → exec (.eGetrot idx) s = .next (s.raise .index) ∧
      exec (.eGetpos idx) s = .next (s.raise .index) ∧
      exec (.eGetlat idx) s = .next (s.raise .index)) ∧
    (∀ r : Slot, idx.toNat < s.cfg.nrot → s.slots[idx.toNat]? = some r →
      exec (.eGetrot idx) s =
          .next (s.respond (if r.fitted then BitVec.ofNat 16 r.id.val else 0xFFFF#16)) ∧
        exec (.eGetpos idx) s = .next (s.respond (BitVec.ofNat 16 r.pos.val)) ∧
        exec (.eGetlat idx) s = .next (s.respond (if r.lat then 1#16 else 0#16)))

/-- R116, R117: E_SETREF and E_GETREF. -/
def Obligations.ReflectorIsSelectedAndRead : Prop :=
  ∀ s : State,
    (∀ a : Byte, encode (.eSetref a) = 0x180000#24 ++ a) ∧ encode .eGetref = 0x19000000#32 ∧
    (∀ a : Byte, 2 < a.toNat → exec (.eSetref a) s = .next (s.raise .value)) ∧
    (∀ (a : Byte) (k : Fin 3), a.toNat = k.val →
      exec (.eSetref a) s = .next (({ s with refl := ⟨true, k⟩ }).respond 0)) ∧
    (s.refl.fitted = false → exec .eGetref s = .next (s.respond 0xFFFF)) ∧
    (s.refl.fitted = true → exec .eGetref s = .next (s.respond (BitVec.ofNat 16 s.refl.id.val)))

/-- R120: E_ADDPR. -/
def Obligations.AddprAddsAPairOnce : Prop :=
  ∀ (s : State) (a b : Byte),
    encode (.eAddpr a b) = 0x1A00#16 ++ b ++ a ∧
    (25 < a.toNat ∨ 25 < b.toNat ∨ a = b → exec (.eAddpr a b) s = .next (s.raise .value)) ∧
    (∀ x y : Letter, a.toNat = x.val → b.toNat = y.val → x ≠ y →
      (s.plug[x] ≠ x ∨ s.plug[y] ≠ y → exec (.eAddpr a b) s = .next (s.respond 0)) ∧
      (s.plug[x] = x → s.plug[y] = y → exec (.eAddpr a b) s =
        .next (({ s with plug := (s.plug.set x y).set y x }).respond 1)))

/-- R121: E_REMPR. -/
def Obligations.RemprRemovesARegisteredPair : Prop :=
  ∀ (s : State) (a b : Byte),
    encode (.eRempr a b) = 0x1B00#16 ++ b ++ a ∧
    (25 < a.toNat ∨ 25 < b.toNat → exec (.eRempr a b) s = .next (s.raise .value)) ∧
    (∀ x y : Letter, a.toNat = x.val → b.toNat = y.val →
      (x ≠ y → s.plug[x] = y → exec (.eRempr a b) s =
        .next (({ s with plug := (s.plug.set x x).set y y }).respond 1)) ∧
      (x = y ∨ s.plug[x] ≠ y → exec (.eRempr a b) s = .next (s.respond 0)))

/-- R122: E_GETPLG reads a letter's partner; applied twice it returns the letter, on a plugboard in
order. -/
def Obligations.GetplgReadsThePartner : Prop :=
  ∀ (s : State) (a : Byte),
    encode (.eGetplg a) = 0x1C0000#24 ++ a ∧
    (25 < a.toNat → exec (.eGetplg a) s = .next (s.raise .value)) ∧
    (∀ x : Letter, a.toNat = x.val →
      exec (.eGetplg a) s = .next (s.respond (BitVec.ofNat 16 s.plug[x].val))) ∧
    (∀ x : Letter, (∀ z : Letter, s.plug[s.plug[z]] = z) →
      exec (.eGetplg (BitVec.ofNat 8 s.plug[x].val)) s = .next (s.respond (BitVec.ofNat 16 x.val)))

/-- R123: the plugboard is an involution at reset, every command keeps it one, and only E_ADDPR and
E_REMPR write it. -/
def Obligations.PlugboardStaysAnInvolution : Prop :=
  (∀ (c : Config) (x : Letter), (State.resetFor c).plug[(State.resetFor c).plug[x]] = x) ∧
    (∀ (i : Instr) (s t : State), (∀ x : Letter, s.plug[s.plug[x]] = x) → exec i s = .next t →
      ∀ x : Letter, t.plug[t.plug[x]] = x) ∧
    ∀ (i : Instr) (s t : State), exec i s = .next t → t.plug ≠ s.plug →
      (∃ a b, i = .eAddpr a b) ∨ ∃ a b, i = .eRempr a b

/-! ### The Lorenz cipher -/

/-- R130: the three classes of a byte, by its uppercased byte `u`, and the symbols of the default
table. -/
def Obligations.LorenzBytesAreClassified : Prop :=
  (∀ u : Byte, u ≠ 0x0A → ((∃ k : Code, defaultBaudot[k.toFin] = some u) ↔
      (0x41 ≤ u.toNat ∧ u.toNat ≤ 0x5A) ∨ u = 0x00 ∨ u = 0x20 ∨ u = 0x0D)) ∧
    ∀ (c : Config) (a u : Byte),
    u = (if 0x61 ≤ a.toNat ∧ a.toNat ≤ 0x7A then a - 0x20 else a) →
    (u = 0x0A → lorenzClass c a = .newline) ∧
    (u ≠ 0x0A → (∃ k : Code, c.baudot[k.toFin] = some u) →
      ∃ k : Code, lorenzClass c a = .symbol u k ∧ c.baudot[k.toFin] = some u) ∧
    (u ≠ 0x0A → (∀ k : Code, c.baudot[k.toFin] ≠ some u) → lorenzClass c a = .other)

/-- R132, R133: bit k of the output code is the code's bit XOR chi pin k XOR the inverse of psi pin
k; the output is that code's symbol or the sentinel; the key is one word, 0b11111 when the chi pins
equal the psi pins and 0 when they are their complement. -/
def Obligations.CombinerXorsTheKey : Prop :=
  ∀ (s : State) (code : Code),
    (∀ k : Fin 5, (s.combine code).getLsbD k.val =
      ((code.getLsbD k.val ^^ s.currentPin ⟨k.val, by omega⟩) ^^
        !s.currentPin ⟨5 + k.val, by omega⟩)) ∧
    s.encryptChar code = (s.cfg.baudot[(s.combine code).toFin]).getD 0x3F ∧
    s.combine code = code ^^^ (s.chiWord ^^^ ~~~ s.psiWord) ∧
    ((∀ k : Fin 5, s.currentPin ⟨k.val, by omega⟩ = s.currentPin ⟨5 + k.val, by omega⟩) →
      s.combine code = code ^^^ 0b11111#5) ∧
    ((∀ k : Fin 5, s.currentPin ⟨k.val, by omega⟩ = !s.currentPin ⟨5 + k.val, by omega⟩) →
      s.combine code = code)

/-- R136: which wheels one StepWheels call moves, by the motor pins before it; each moves one on,
modulo its own size (R134), and nothing else changes. -/
def Obligations.MotorPinsGateTheWheels : Prop :=
  ∀ s : State,
    s.stepWheels = { s with wheels := s.stepWheels.wheels } ∧
    ∀ w : WheelIx, s.stepWheels.wheel w =
      if w.val ≤ 4 ∨ w.val = 11 ∨ (w.val ≤ 9 ∧ s.currentPin 10 = true) ∨
          (w.val = 10 ∧ s.currentPin 11 = true)
      then { s.wheel w with pos := ((s.wheel w).pos + 1) % s.cfg.wheelSizes[w] }
      else s.wheel w

/-- R141: L_PROC in full. A symbol is enciphered under the wheels before the step, both logs are
appended, and then the wheels step. -/
def Obligations.LprocEnciphersLogsAndSteps : Prop :=
  ∀ (s : State) (a : Byte),
    encode (.lProc a) = 0x200000#24 ++ a ∧
    (lorenzClass s.cfg a = .other → exec (.lProc a) s = .next (s.respond 0x0200)) ∧
    (lorenzClass s.cfg a ≠ .other → s.loglen.toNat = s.cfg.logDepth →
      exec (.lProc a) s =
        .next { s with rsp := some 0x06000000#32, errf := s.errf ||| 0b0100000#7 }) ∧
    (lorenzClass s.cfg a = .newline → s.loglen.toNat < s.cfg.logDepth →
      exec (.lProc a) s = .next (({ s with
        logPT := logInsert s.logPT s.loglen.toNat 0x0A
        logCT := logInsert s.logCT s.loglen.toNat 0x0A
        loglen := s.loglen + 1 }).respond 0x010A)) ∧
    (∀ (c : Byte) (k : Code), lorenzClass s.cfg a = .symbol c k →
      s.loglen.toNat < s.cfg.logDepth →
      exec (.lProc a) s = .next (({ s with
        logPT := logInsert s.logPT s.loglen.toNat c
        logCT := logInsert s.logCT s.loglen.toNat (s.encryptChar k)
        loglen := s.loglen + 1
        wheels := s.stepWheels.wheels }).respond ((s.encryptChar k).setWidth 16)))

/-- R142: L_XFORM enciphers without logging or stepping, and changes no state. -/
def Obligations.LxformEnciphersUnstepped : Prop :=
  ∀ (s : State) (a : Byte),
    encode (.lXform a) = 0x210000#24 ++ a ∧
    (lorenzClass s.cfg a = .newline → exec (.lXform a) s = .next (s.respond 0x010A)) ∧
    (lorenzClass s.cfg a = .other → exec (.lXform a) s = .next (s.respond 0x0200)) ∧
    (∀ (c : Byte) (k : Code), lorenzClass s.cfg a = .symbol c k →
      exec (.lXform a) s = .next (s.respond ((s.encryptChar k).setWidth 16)))

/-- R14, R33, R141: what the logs hold after each outcome of L_PROC. A symbol with room puts the
uppercased byte and the output byte at the old length, a newline with room puts 0x0A there in both
logs, and every other cell of both logs reads as before; a dropped byte and a full log leave every
cell as before. No command but L_PROC changes what any cell reads as. -/
def Obligations.OnlyLprocWritesTheLogs : Prop :=
  (∀ (s t : State) (a c : Byte) (k : Code), lorenzClass s.cfg a = .symbol c k →
      s.loglen.toNat < s.cfg.logDepth → exec (.lProc a) s = .next t →
      t.logByte .pt s.loglen.toNat = c ∧ t.logByte .ct s.loglen.toNat = s.encryptChar k ∧
      ∀ (l : LogSel) (n : Nat), n ≠ s.loglen.toNat → t.logByte l n = s.logByte l n) ∧
    (∀ (s t : State) (a : Byte), lorenzClass s.cfg a = .newline →
      s.loglen.toNat < s.cfg.logDepth → exec (.lProc a) s = .next t →
      t.logByte .pt s.loglen.toNat = 0x0A ∧ t.logByte .ct s.loglen.toNat = 0x0A ∧
      ∀ (l : LogSel) (n : Nat), n ≠ s.loglen.toNat → t.logByte l n = s.logByte l n) ∧
    (∀ (s t : State) (a : Byte),
      lorenzClass s.cfg a = .other ∨ s.loglen.toNat = s.cfg.logDepth →
      exec (.lProc a) s = .next t → ∀ (l : LogSel) (n : Nat), t.logByte l n = s.logByte l n) ∧
    (∀ (i : Instr) (s t : State), (∀ a, i ≠ .lProc a) → exec i s = .next t →
      ∀ (l : LogSel) (n : Nat), t.logByte l n = s.logByte l n)

/-- R137: no wheel changes but by an L_PROC that enciphers a symbol, by L_SETPOS or by L_SETPIN. -/
def Obligations.WheelsMoveOnlyByNamedCommands : Prop :=
  ∀ (i : Instr) (s t : State), exec i s = .next t → t.wheels ≠ s.wheels →
    (∃ a c k, i = .lProc a ∧ lorenzClass s.cfg a = .symbol c k) ∨
      (∃ idx a, i = .lSetpos idx a) ∨ ∃ idx a, i = .lSetpin idx a

/-- R143: the self-inverse property with its limits, for the default Baudot table. On codes it always
holds; on characters it holds but where the first output is the sentinel, which the second command
drops, or LF, which it takes for a newline. -/
def Obligations.LxformTwiceReturnsTheSymbol : Prop :=
  ∀ s : State,
    (∀ code : Code, s.combine (s.combine code) = code) ∧
    (s.cfg.baudot = defaultBaudot → ∀ (a c : Byte) (k : Code), lorenzClass s.cfg a = .symbol c k →
      exec (.lXform a) s = .next (s.respond ((s.encryptChar k).setWidth 16)) ∧
      exec (.lXform (s.encryptChar k)) s =
        .next (s.respond
          (if s.combine k = 27 ∨ s.combine k = 31 then 0x0200
          else if s.combine k = 2 then 0x010A
          else c.setWidth 16)))

/-- R144: over N enciphering L_PROC commands during which the coarse motor's pins are 0, the fine
motor does not move, the chi wheels and the coarse motor advance N times, and the psi wheels advance
N times if the fine motor's pin is 1 and not at all if it is 0. -/
def Obligations.ZeroCoarsePinsFreezeTheFineMotor : Prop :=
  ∀ (s : State) (text : List Byte), s.Inv → s.loglen.toNat + text.length ≤ s.cfg.logDepth →
    (∀ a ∈ text, ∃ c k, lorenzClass s.cfg a = .symbol c k) →
    (∀ n < text.length,
      (s.wheel 11).pins[((s.wheel 11).pos + n) % s.cfg.wheelSizes[(11 : WheelIx)]]? = some false) →
    ∃ t, issueAll (pseudoLprocess text) s = .next t ∧
      (t.wheel 10).pos = (s.wheel 10).pos ∧
      (∀ w : WheelIx, w.val ≤ 4 ∨ w.val = 11 →
        (t.wheel w).pos = ((s.wheel w).pos + text.length) % s.cfg.wheelSizes[w]) ∧
      (∀ w : WheelIx, 5 ≤ w.val → w.val ≤ 9 →
        (t.wheel w).pos =
          if s.currentPin 10 then ((s.wheel w).pos + text.length) % s.cfg.wheelSizes[w]
          else (s.wheel w).pos)

/-! ### Lorenz wheels and logs -/

/-- R145, R147: L_SETPOS writes a wheel's position, L_SETPIN the pin at its position. -/
def Obligations.WheelWritesSetPositionAndPin : Prop :=
  ∀ (s : State) (idx a : Byte),
    encode (.lSetpos idx a) = 0x22#8 ++ idx ++ 0x00#8 ++ a ∧
    encode (.lSetpin idx a) = 0x24#8 ++ idx ++ 0x00#8 ++ a ∧
    (11 < idx.toNat → exec (.lSetpos idx a) s = .next (s.raise .index) ∧
      exec (.lSetpin idx a) s = .next (s.raise .index)) ∧
    (∀ w : WheelIx, idx.toNat = w.val →
      (s.cfg.wheelSizes[w] ≤ a.toNat → exec (.lSetpos idx a) s = .next (s.raise .value)) ∧
      (a.toNat < s.cfg.wheelSizes[w] → exec (.lSetpos idx a) s =
        .next (({ s with wheels := s.wheels.set w { s.wheels[w] with pos := a.toNat } }).respond 0)) ∧
      (1 < a.toNat → exec (.lSetpin idx a) s = .next (s.raise .value)) ∧
      (∀ v : Bool, a.toNat = v.toNat → exec (.lSetpin idx a) s =
        .next (({ s with wheels := s.wheels.set w { s.wheels[w] with
          pins := s.wheels[w].pins.set s.wheels[w].pos v } }).respond 0)))

/-- R146, R148: L_GETPOS and L_GETPIN read a wheel and change nothing. -/
def Obligations.WheelReadsAnswerPositionAndPin : Prop :=
  ∀ (s : State) (idx : Byte),
    encode (.lGetpos idx) = 0x23#8 ++ idx ++ 0x0000#16 ∧
    encode (.lGetpin idx) = 0x25#8 ++ idx ++ 0x0000#16 ∧
    (11 < idx.toNat → exec (.lGetpos idx) s = .next (s.raise .index) ∧
      exec (.lGetpin idx) s = .next (s.raise .index)) ∧
    (∀ w : WheelIx, idx.toNat = w.val →
      exec (.lGetpos idx) s = .next (s.respond (BitVec.ofNat 16 s.wheels[w].pos)) ∧
      (∀ v : Bool, s.wheels[w].pins[s.wheels[w].pos]? = some v →
        exec (.lGetpin idx) s = .next (s.respond (if v then 1#16 else 0#16))))

/-- R150, R152: L_LOGLEN reads the length; L_LOGTRN lowers it or raises E_LOGRANGE, and moves no
wheel. -/
def Obligations.LogLengthIsReadAndLowered : Prop :=
  ∀ (s : State) (n : Data),
    encode .lLoglen = 0x26000000#32 ∧ encode (.lLogtrn n) = 0x2800#16 ++ n ∧
    exec .lLoglen s = .next (s.respond s.loglen) ∧
    (s.loglen.toNat < n.toNat → exec (.lLogtrn n) s =
      .next { s with rsp := some 0x07000000#32, errf := s.errf ||| 0b1000000#7 }) ∧
    (n.toNat ≤ s.loglen.toNat → exec (.lLogtrn n) s = .next (({ s with loglen := n }).respond 0))

/-- R151: L_LOGRD reads one byte of a log below its length. Below LOG_DEPTH it answers what the cell
reads as, which is the byte written there. -/
def Obligations.LogrdReadsALogByte : Prop :=
  ∀ (s : State) (idx : Byte) (n : Data),
    encode (.lLogrd idx n) = 0x27#8 ++ idx ++ n ∧
    (1 < idx.toNat → exec (.lLogrd idx n) s = .next (s.raise .index)) ∧
    (idx.toNat ≤ 1 → s.loglen.toNat ≤ n.toNat →
      exec (.lLogrd idx n) s =
        .next { s with rsp := some 0x07000000#32, errf := s.errf ||| 0b1000000#7 }) ∧
    (idx.toNat ≤ 1 → n.toNat < s.loglen.toNat → n.toNat < s.cfg.logDepth →
      exec (.lLogrd idx n) s =
        .next (s.respond ((s.logByte (if idx = 0 then .pt else .ct) n.toNat).setWidth 16))) ∧
    (∀ (l : LogSel) (v : Byte), logLookup (s.log l) n.toNat = some v → s.logByte l n.toNat = v)

/-! ### Baudot lookup -/

/-- R160, R161: B_ENC answers a symbol's code, without case folding, or 0xFFFF; B_DEC answers a
code's symbol or the sentinel, or raises E_VALUE. -/
def Obligations.BaudotLookupsAnswerTheTable : Prop :=
  ∀ (s : State) (a : Byte),
    encode (.bEnc a) = 0x300000#24 ++ a ∧ encode (.bDec a) = 0x310000#24 ++ a ∧
    (s.cfg.WellFormed → ∀ k : Code, s.cfg.baudot[k.toFin] = some a →
      exec (.bEnc a) s = .next (s.respond (k.setWidth 16))) ∧
    ((∀ k : Code, s.cfg.baudot[k.toFin] ≠ some a) → exec (.bEnc a) s = .next (s.respond 0xFFFF)) ∧
    (31 < a.toNat → exec (.bDec a) s = .next (s.raise .value)) ∧
    (∀ k : Code, a.toNat = k.toNat →
      exec (.bDec a) s = .next (s.respond (((s.cfg.baudot[k.toFin]).getD 0x3F).setWidth 16)))

/-- R162: B_DEC of a mapped symbol's code returns the symbol, and B_ENC of a mapped code's symbol
returns the code. -/
def Obligations.BaudotLookupsRoundTrip : Prop :=
  ∀ s : State, s.cfg.WellFormed →
    (∀ (a : Byte) (k : Code) (t : State), exec (.bEnc a) s = .next t →
      t.rsp = some (okResponse (k.setWidth 16)) →
      exec (.bDec (k.setWidth 8)) s = .next (s.respond (a.setWidth 16))) ∧
    (∀ (k : Code) (a : Byte) (t : State), s.cfg.baudot[k.toFin] = some a →
      exec (.bDec (k.setWidth 8)) s = .next t →
      t.rsp = some (okResponse (a.setWidth 16)) ∧
        exec (.bEnc a) s = .next (s.respond (k.setWidth 16)))

/-! ### Rules over all commands -/

/-- R64: a command of the read class changes no state, or only its error flag; repeating it gives the
same response and the same state. -/
def Obligations.ReadCommandsChangeNothing : Prop :=
  ∀ (i : Instr) (s t : State), i.isRead = true → exec i s = .next t →
    (t = { s with rsp := t.rsp } ∨ ∃ e, t = s.raise e) ∧ exec i t = .next t

/-- R35, R192: which commands write a latch, a slot's or the reflector's configured bit and the error
flags; and no command makes a slot or the reflector unfitted. -/
def Obligations.FlagsAreWrittenOnlyByNamedCommands : Prop :=
  ∀ (i : Instr) (s t : State), exec i s = .next t →
    (t.slots.map Slot.lat ≠ s.slots.map Slot.lat →
      (∃ a, i = .eEnter a) ∨ (∃ idx a, i = .eSetlat idx a) ∨ ∃ idx a, i = .eSetrot idx a) ∧
    (t.slots.map Slot.fitted ≠ s.slots.map Slot.fitted → ∃ idx a, i = .eSetrot idx a) ∧
    (t.refl.fitted ≠ s.refl.fitted → ∃ a, i = .eSetref a) ∧
    (t.errf ≠ s.errf → i = .clrerr ∨ ∃ e, t = s.raise e) ∧
    (∀ j, (s.slot j).fitted = true → (t.slot j).fitted = true) ∧
    (s.refl.fitted = true → t.refl.fitted = true)

/-- R207: the two units share no state. An Enigma command leaves the Lorenz unit as it is and answers
by the Enigma unit alone, and a Lorenz command the other way round. -/
def Obligations.UnitsDoNotInterfere : Prop :=
  (∀ (i : Instr) (s t : State), i.isEnigma = true → exec i s = .next t →
      t.wheels = s.wheels ∧ t.loglen = s.loglen ∧ t.logPT = s.logPT ∧ t.logCT = s.logCT) ∧
    (∀ (i : Instr) (s t : State), i.isLorenz = true → exec i s = .next t →
      t.slots = s.slots ∧ t.refl = s.refl ∧ t.plug = s.plug) ∧
    (∀ (i : Instr) (s u s' u' : State), i.isEnigma = true → s.cfg = u.cfg → s.slots = u.slots →
      s.refl = u.refl → s.plug = u.plug → exec i s = .next s' → exec i u = .next u' →
      s'.rsp = u'.rsp ∧ s'.slots = u'.slots ∧ s'.refl = u'.refl ∧ s'.plug = u'.plug) ∧
    (∀ (i : Instr) (s u s' u' : State), i.isLorenz = true → s.cfg = u.cfg → s.wheels = u.wheels →
      s.loglen = u.loglen → s.logPT = u.logPT → s.logCT = u.logCT → exec i s = .next s' →
      exec i u = .next u' →
      s'.rsp = u'.rsp ∧ s'.wheels = u'.wheels ∧ s'.loglen = u'.loglen ∧ s'.logPT = u'.logPT ∧
        s'.logCT = u'.logCT)

/-! ### Undo -/

/-- R196, Enigma: ESNAP reads every position and then every latch, which is the model's order of the
reads (log entry 12), and its responses join the model's own record of what the host has taken (log
entry 9). After any text ERESTORE of the snapshot gives every slot back and leaves the reflector, the
plugboard and the error flags as they are; nothing is stated here of the wheels and the logs. -/
def Obligations.EnigmaUndoRestoresTheSlots : Prop :=
  ∀ (s : State) (text : List Byte), s.Inv →
    ∃ v t u, issueAll (pseudoEsnap s.cfg.nrot) s = .next v ∧
      v.taken = (s.slots.map (fun r => okResponse (BitVec.ofNat 16 r.pos.val)) ++
        s.slots.map (fun r => okResponse (if r.lat then 1#16 else 0#16))).reverse ++ s.taken ∧
      issueAll (pseudoEncode text) s = .next t ∧
      issueAll (pseudoErestore s.enigmaSnapshot) t = .next u ∧
      u.slots = s.slots ∧ u.refl = s.refl ∧ u.plug = s.plug ∧ u.errf = t.errf

/-- R196, R85, Lorenz: LSNAP reads every wheel's position and then the log length, and its responses
join the model's own record of what the host has taken (log entry 9). After any text LRESTORE of that
snapshot gives the wheels and the log length back, and every log byte below that length reads as
before. A wheel size above 256 is left out, because no L_SETPOS operand could name its last position
(log entry 6). -/
def Obligations.LorenzUndoRestoresWheelsAndLog : Prop :=
  ∀ (s : State) (text : List Byte), s.Inv → (∀ w : WheelIx, s.cfg.wheelSizes[w] ≤ 256) →
    ∃ v t u, issueAll pseudoLsnap s = .next v ∧
      v.taken = (s.wheelSnapshot.map (fun p => okResponse (BitVec.ofNat 16 p)) ++
        [okResponse s.loglen]).reverse ++ s.taken ∧
      v.wheels = s.wheels ∧ v.loglen = s.loglen ∧
      issueAll (pseudoLprocess text) s = .next t ∧
      issueAll (pseudoLrestore s.wheelSnapshot s.loglen) t = .next u ∧
      u.wheels = s.wheels ∧ u.loglen = s.loglen ∧ u.errf = t.errf ∧
      ∀ (l : LogSel) (n : Nat), n < s.loglen.toNat → u.logByte l n = s.logByte l n

/-! ### Reset, the port and the step -/

/-- R43, R190: the state after reset, for every configuration, and the edge at which `rst` is
asserted, which gives every element that value and abandons the command in flight. The log contents
are left unspecified and nothing is stated of them. That the edge keeps the configuration, which the
model carries in its state (log entry 1), and takes no response into the model's own record (log
entry 9) is the model's choice (log entry 10), and so is the list the input stands in (log entry 8);
by 93 U5 a run of the spec ends at the reset. -/
def Obligations.ResetGivesEveryElementItsValue : Prop :=
  (∀ c : Config,
      (State.resetFor c).slots = List.replicate c.nrot ⟨false, 0, 0, false⟩ ∧
      (State.resetFor c).refl = ⟨false, 0⟩ ∧
      (∀ x : Letter, (State.resetFor c).plug[x] = x) ∧
      (∀ w : WheelIx, ((State.resetFor c).wheels[w]).pos = 0 ∧
        ((State.resetFor c).wheels[w]).pins = List.replicate c.wheelSizes[w] false) ∧
      (State.resetFor c).loglen = 0 ∧ (State.resetFor c).errf = 0 ∧
      (State.resetFor c).rsp = none) ∧
    (∀ (s : State) (p : PortIn) (rest : List PortIn), s.cfg.wf = true → s.pins = p :: rest →
      p.rst = true →
      ∃ t, step s = .next t ∧ t.cfg = s.cfg ∧ t.slots = (State.resetFor s.cfg).slots ∧
        t.refl = (State.resetFor s.cfg).refl ∧ t.plug = (State.resetFor s.cfg).plug ∧
        t.wheels = (State.resetFor s.cfg).wheels ∧ t.loglen = 0 ∧ t.errf = 0 ∧ t.rsp = none ∧
        t.taken = s.taken)

/-- The form of the machine that R20 to R50 describe holds after reset, for every well-formed
configuration; and the model's one reset state is that of the spec's default parameters, which is the
model's choice (log entry 1). -/
def Obligations.InvariantHoldsAtReset : Prop :=
  State.reset = State.resetFor Config.default ∧ State.reset.Inv ∧
    ∀ c : Config, c.WellFormed → (State.resetFor c).Inv

/-- Every edge keeps the invariant: the chain's length (R22), the plugboard an involution (R28), every
wheel in its range (R31), the logs within their bounds, written below their length (R32, R33) and in
canonical form, and every response legal (R72). -/
def Obligations.StepKeepsTheInvariant : Prop :=
  ∀ s t : State, s.Inv → step s = .next t → t.Inv

/-- R177: from a state in which the invariant holds, the machine neither faults nor refuses; every
error is a status. -/
def Obligations.StepNeverStopsInTheInvariant : Prop :=
  ∀ s : State, s.Inv → ∃ t, step s = .next t

/-- R10, R177: an ill-formed configuration is the one thing the model refuses. Two points are the
model's own: a Baudot table of other than 30 entries counts as ill-formed, which is read from R7's
type column and stands in neither R10 nor 93 U8 (log entry 5); and it is `step`, not `exec`, that
refuses (log entry 14). -/
def Obligations.OnlyIllFormedConfigurationsAreRefused : Prop :=
  ∀ s : State, (¬ s.cfg.WellFormed → step s = .refused .illFormedConfig) ∧
    (s.cfg.WellFormed → ∀ r, step s ≠ .refused r)

/-- R204, R60: at an edge where a command is accepted, the step is the command's rule on the same
state, with the sampled inputs behind it and the command's latency started; a word that is no
command raises its decode error instead. That the command's state writes land at this edge, before
its latency runs, is the model's choice (log entry 17), and so are the latencies and the inputs as
lists (log entries 7 and 8). -/
def Obligations.StepRunsTheDecodedCommand : Prop :=
  ∀ (s : State) (p : PortIn) (rest : List PortIn), s.cfg.wf = true → s.rsp = none →
    s.pins = p :: rest → p.rst = false → p.cmdValid = true →
    (∀ i, decode p.cmd = .ok i →
      step s = exec i { s with
        pins := rest, wait := s.latencies.headD 0, latencies := s.latencies.tail }) ∧
    (∀ e, decode p.cmd = .error e →
      step s = .next (({ s with
        pins := rest, wait := s.latencies.headD 0, latencies := s.latencies.tail }).raise
          (decodeStatus e)))

/-- R204: the other edges, and the outputs at each. With no command in flight the block is ready for
one, and with none offered nothing happens; while a command is in flight the block is not ready and
accepts none; its response is offered once its latency has passed and held until the host is ready,
and then it is taken and the block is ready again. The inputs and the latency as lists are the
model's choice (log entries 7 and 8), and so are the record the response goes to (log entry 9) and that a
command's state writes are done before the edges of its latency, which leave the elements as they are
(log entry 17). -/
def Obligations.PortHoldsOneCommandInFlight : Prop :=
  ∀ (s : State) (p : PortIn) (rest : List PortIn), s.cfg.wf = true → s.pins = p :: rest →
    p.rst = false →
    (s.rsp = none → s.cmdReady = true ∧ s.rspValid = false ∧
      (p.cmdValid = false → step s = .next { s with pins := rest })) ∧
    (∀ (r : Word) (n : Nat), s.rsp = some r → s.wait = n + 1 →
      s.rspValid = false ∧ s.cmdReady = false ∧ step s = .next { s with pins := rest, wait := n }) ∧
    (∀ r : Word, s.rsp = some r → s.wait = 0 → p.rspReady = false →
      s.rspValid = true ∧ s.cmdReady = false ∧ step s = .next { s with pins := rest }) ∧
    (∀ r : Word, s.rsp = some r → s.wait = 0 → p.rspReady = true →
      s.rspValid = true ∧ s.cmdReady = false ∧
        ∃ t, step s = .next t ∧ t = { s with pins := rest, rsp := none, taken := r :: s.taken } ∧
          t.cmdReady = true ∧ t.rspValid = false)

/-- R205: no command hangs. A response whose latency has `wait` edges to go is taken at the edge
after them if the host is ready there, whatever the host drives before, and then the block is ready. -/
def Obligations.ResponseIsTakenAfterItsLatency : Prop :=
  ∀ (s : State) (r : Word) (before rest : List PortIn) (p : PortIn), s.cfg.wf = true →
    s.rsp = some r → s.pins = before ++ p :: rest → before.length = s.wait →
    (∀ q ∈ before, q.rst = false) → p.rst = false → p.rspReady = true →
    ∃ t, Host.Core.run Sys2Proof.core (s.wait + 1) s = .next t ∧ t.rsp = none ∧
      t.taken = r :: s.taken ∧ t.pins = rest ∧ t.cmdReady = true

/-- R209: the port only orders the commands. Offering a word, waiting out its latency, whatever it
is, and taking the response, edge by edge, is running the word as a function of state and word. -/
def Obligations.PortRunsTheCommandFunction : Prop :=
  ∀ (s : State) (w : Word) (rest : List PortIn), s.cfg.wf = true → s.rsp = none →
    s.pins = PortIn.offer w ::
      (List.replicate (s.latencies.headD 0) PortIn.idle ++ PortIn.ready :: rest) →
    ∀ t, runCommand w s = .next t →
      Host.Core.run Sys2Proof.core (s.latencies.headD 0 + 2) s =
        .next { t with pins := rest, latencies := s.latencies.tail, wait := 0 }
end

