-- ==== Sys2Proof/Laws/Config.lean ====
section
/-!
SUPPORT. The configuration check: the Bool the step runs says what the predicate says, and the
default configuration passes it.
-/

namespace Sys2Proof

theorem wf_iff (c : Config) : c.wf = true ↔ c.WellFormed := by
  simp only [Config.wf, Bool.and_eq_true, decide_eq_true_eq]
  constructor
  · rintro ⟨⟨⟨⟨⟨⟨⟨h1, h2⟩, h3⟩, h4⟩, h5⟩, h6⟩, h7⟩, h8⟩
    exact ⟨h1, h2, h3, h4, h5, h6, h7, h8⟩
  · rintro ⟨h1, h2, h3, h4, h5, h6, h7, h8⟩
    exact ⟨⟨⟨⟨⟨⟨⟨h1, h2⟩, h3⟩, h4⟩, h5⟩, h6⟩, h7⟩, h8⟩

theorem default_wf : Config.default.wf = true := by decide

theorem default_wellFormed : Config.default.WellFormed := (wf_iff _).1 default_wf

end Sys2Proof
end

