-- ==== Sys2Proof/Laws/State.lean ====
section
/-!
SUPPORT. One lemma per field per update of the state, each true by rfl, so that no proof unfolds a
record update; and the same for the accessors that read one field.
-/

namespace Sys2Proof.Machine

variable (s : State)

/-! ### respond -/

@[simp] theorem respond_cfg (d : Data) : (s.respond d).cfg = s.cfg := rfl
@[simp] theorem respond_slots (d : Data) : (s.respond d).slots = s.slots := rfl
@[simp] theorem respond_refl (d : Data) : (s.respond d).refl = s.refl := rfl
@[simp] theorem respond_plug (d : Data) : (s.respond d).plug = s.plug := rfl
@[simp] theorem respond_wheels (d : Data) : (s.respond d).wheels = s.wheels := rfl
@[simp] theorem respond_loglen (d : Data) : (s.respond d).loglen = s.loglen := rfl
@[simp] theorem respond_logPT (d : Data) : (s.respond d).logPT = s.logPT := rfl
@[simp] theorem respond_logCT (d : Data) : (s.respond d).logCT = s.logCT := rfl
@[simp] theorem respond_errf (d : Data) : (s.respond d).errf = s.errf := rfl
@[simp] theorem respond_rsp (d : Data) : (s.respond d).rsp = some (okResponse d) := rfl
@[simp] theorem respond_wait (d : Data) : (s.respond d).wait = s.wait := rfl
@[simp] theorem respond_pins (d : Data) : (s.respond d).pins = s.pins := rfl
@[simp] theorem respond_latencies (d : Data) : (s.respond d).latencies = s.latencies := rfl
@[simp] theorem respond_taken (d : Data) : (s.respond d).taken = s.taken := rfl
@[simp] theorem respond_slot (d : Data) (j : Nat) : (s.respond d).slot j = s.slot j := rfl
@[simp] theorem respond_partner (d : Data) (z : Letter) :
    (s.respond d).partner z = s.partner z := rfl
@[simp] theorem respond_wheel (d : Data) (u : WheelIx) : (s.respond d).wheel u = s.wheel u := rfl
@[simp] theorem respond_currentPin (d : Data) (u : WheelIx) :
    (s.respond d).currentPin u = s.currentPin u := rfl
@[simp] theorem respond_log (d : Data) (k : LogSel) : (s.respond d).log k = s.log k := by cases k <;> rfl
@[simp] theorem respond_logByte (d : Data) (k : LogSel) (n : Nat) :
    (s.respond d).logByte k n = s.logByte k n := by simp [State.logByte]

/-! ### raise -/

@[simp] theorem raise_cfg (e : ErrorStatus) : (s.raise e).cfg = s.cfg := rfl
@[simp] theorem raise_slots (e : ErrorStatus) : (s.raise e).slots = s.slots := rfl
@[simp] theorem raise_refl (e : ErrorStatus) : (s.raise e).refl = s.refl := rfl
@[simp] theorem raise_plug (e : ErrorStatus) : (s.raise e).plug = s.plug := rfl
@[simp] theorem raise_wheels (e : ErrorStatus) : (s.raise e).wheels = s.wheels := rfl
@[simp] theorem raise_loglen (e : ErrorStatus) : (s.raise e).loglen = s.loglen := rfl
@[simp] theorem raise_logPT (e : ErrorStatus) : (s.raise e).logPT = s.logPT := rfl
@[simp] theorem raise_logCT (e : ErrorStatus) : (s.raise e).logCT = s.logCT := rfl
@[simp] theorem raise_errf (e : ErrorStatus) : (s.raise e).errf = s.errf ||| e.flag := rfl
@[simp] theorem raise_rsp (e : ErrorStatus) : (s.raise e).rsp = some (errorResponse e) := rfl
@[simp] theorem raise_wait (e : ErrorStatus) : (s.raise e).wait = s.wait := rfl
@[simp] theorem raise_pins (e : ErrorStatus) : (s.raise e).pins = s.pins := rfl
@[simp] theorem raise_latencies (e : ErrorStatus) : (s.raise e).latencies = s.latencies := rfl
@[simp] theorem raise_taken (e : ErrorStatus) : (s.raise e).taken = s.taken := rfl
@[simp] theorem raise_slot (e : ErrorStatus) (j : Nat) : (s.raise e).slot j = s.slot j := rfl
@[simp] theorem raise_partner (e : ErrorStatus) (z : Letter) :
    (s.raise e).partner z = s.partner z := rfl
@[simp] theorem raise_wheel (e : ErrorStatus) (u : WheelIx) : (s.raise e).wheel u = s.wheel u := rfl
@[simp] theorem raise_currentPin (e : ErrorStatus) (u : WheelIx) :
    (s.raise e).currentPin u = s.currentPin u := rfl
@[simp] theorem raise_log (e : ErrorStatus) (k : LogSel) : (s.raise e).log k = s.log k := by cases k <;> rfl
@[simp] theorem raise_logByte (e : ErrorStatus) (k : LogSel) (n : Nat) :
    (s.raise e).logByte k n = s.logByte k n := by simp [State.logByte]

/-! ### clearErrors -/

@[simp] theorem clearErrors_cfg : (s.clearErrors).cfg = s.cfg := rfl
@[simp] theorem clearErrors_slots : (s.clearErrors).slots = s.slots := rfl
@[simp] theorem clearErrors_refl : (s.clearErrors).refl = s.refl := rfl
@[simp] theorem clearErrors_plug : (s.clearErrors).plug = s.plug := rfl
@[simp] theorem clearErrors_wheels : (s.clearErrors).wheels = s.wheels := rfl
@[simp] theorem clearErrors_loglen : (s.clearErrors).loglen = s.loglen := rfl
@[simp] theorem clearErrors_logPT : (s.clearErrors).logPT = s.logPT := rfl
@[simp] theorem clearErrors_logCT : (s.clearErrors).logCT = s.logCT := rfl
@[simp] theorem clearErrors_errf : (s.clearErrors).errf = 0 := rfl
@[simp] theorem clearErrors_rsp : (s.clearErrors).rsp = s.rsp := rfl
@[simp] theorem clearErrors_wait : (s.clearErrors).wait = s.wait := rfl
@[simp] theorem clearErrors_pins : (s.clearErrors).pins = s.pins := rfl
@[simp] theorem clearErrors_latencies : (s.clearErrors).latencies = s.latencies := rfl
@[simp] theorem clearErrors_taken : (s.clearErrors).taken = s.taken := rfl
@[simp] theorem clearErrors_slot (j : Nat) : (s.clearErrors).slot j = s.slot j := rfl
@[simp] theorem clearErrors_partner (z : Letter) : (s.clearErrors).partner z = s.partner z := rfl
@[simp] theorem clearErrors_wheel (u : WheelIx) : (s.clearErrors).wheel u = s.wheel u := rfl
@[simp] theorem clearErrors_currentPin (u : WheelIx) :
    (s.clearErrors).currentPin u = s.currentPin u := rfl
@[simp] theorem clearErrors_log (k : LogSel) : (s.clearErrors).log k = s.log k := by cases k <;> rfl
@[simp] theorem clearErrors_logByte (k : LogSel) (n : Nat) :
    (s.clearErrors).logByte k n = s.logByte k n := by simp [State.logByte]

/-! ### setSlot -/

@[simp] theorem setSlot_cfg (i : Nat) (v : Slot) : (s.setSlot i v).cfg = s.cfg := rfl
@[simp] theorem setSlot_slots (i : Nat) (v : Slot) : (s.setSlot i v).slots = s.slots.set i v := rfl
@[simp] theorem setSlot_refl (i : Nat) (v : Slot) : (s.setSlot i v).refl = s.refl := rfl
@[simp] theorem setSlot_plug (i : Nat) (v : Slot) : (s.setSlot i v).plug = s.plug := rfl
@[simp] theorem setSlot_wheels (i : Nat) (v : Slot) : (s.setSlot i v).wheels = s.wheels := rfl
@[simp] theorem setSlot_loglen (i : Nat) (v : Slot) : (s.setSlot i v).loglen = s.loglen := rfl
@[simp] theorem setSlot_logPT (i : Nat) (v : Slot) : (s.setSlot i v).logPT = s.logPT := rfl
@[simp] theorem setSlot_logCT (i : Nat) (v : Slot) : (s.setSlot i v).logCT = s.logCT := rfl
@[simp] theorem setSlot_errf (i : Nat) (v : Slot) : (s.setSlot i v).errf = s.errf := rfl
@[simp] theorem setSlot_rsp (i : Nat) (v : Slot) : (s.setSlot i v).rsp = s.rsp := rfl
@[simp] theorem setSlot_wait (i : Nat) (v : Slot) : (s.setSlot i v).wait = s.wait := rfl
@[simp] theorem setSlot_pins (i : Nat) (v : Slot) : (s.setSlot i v).pins = s.pins := rfl
@[simp] theorem setSlot_latencies (i : Nat) (v : Slot) :
    (s.setSlot i v).latencies = s.latencies := rfl
@[simp] theorem setSlot_taken (i : Nat) (v : Slot) : (s.setSlot i v).taken = s.taken := rfl
@[simp] theorem setSlot_partner (i : Nat) (v : Slot) (z : Letter) :
    (s.setSlot i v).partner z = s.partner z := rfl
@[simp] theorem setSlot_wheel (i : Nat) (v : Slot) (u : WheelIx) :
    (s.setSlot i v).wheel u = s.wheel u := rfl
@[simp] theorem setSlot_currentPin (i : Nat) (v : Slot) (u : WheelIx) :
    (s.setSlot i v).currentPin u = s.currentPin u := rfl
@[simp] theorem setSlot_log (i : Nat) (v : Slot) (k : LogSel) : (s.setSlot i v).log k = s.log k := by cases k <;> rfl
@[simp] theorem setSlot_logByte (i : Nat) (v : Slot) (k : LogSel) (n : Nat) :
    (s.setSlot i v).logByte k n = s.logByte k n := by simp [State.logByte]

/-! ### setSlots -/

@[simp] theorem setSlots_cfg (l : List Slot) : (s.setSlots l).cfg = s.cfg := rfl
@[simp] theorem setSlots_slots (l : List Slot) : (s.setSlots l).slots = l := rfl
@[simp] theorem setSlots_refl (l : List Slot) : (s.setSlots l).refl = s.refl := rfl
@[simp] theorem setSlots_plug (l : List Slot) : (s.setSlots l).plug = s.plug := rfl
@[simp] theorem setSlots_wheels (l : List Slot) : (s.setSlots l).wheels = s.wheels := rfl
@[simp] theorem setSlots_loglen (l : List Slot) : (s.setSlots l).loglen = s.loglen := rfl
@[simp] theorem setSlots_logPT (l : List Slot) : (s.setSlots l).logPT = s.logPT := rfl
@[simp] theorem setSlots_logCT (l : List Slot) : (s.setSlots l).logCT = s.logCT := rfl
@[simp] theorem setSlots_errf (l : List Slot) : (s.setSlots l).errf = s.errf := rfl
@[simp] theorem setSlots_rsp (l : List Slot) : (s.setSlots l).rsp = s.rsp := rfl
@[simp] theorem setSlots_wait (l : List Slot) : (s.setSlots l).wait = s.wait := rfl
@[simp] theorem setSlots_pins (l : List Slot) : (s.setSlots l).pins = s.pins := rfl
@[simp] theorem setSlots_latencies (l : List Slot) : (s.setSlots l).latencies = s.latencies := rfl
@[simp] theorem setSlots_taken (l : List Slot) : (s.setSlots l).taken = s.taken := rfl
@[simp] theorem setSlots_partner (l : List Slot) (z : Letter) :
    (s.setSlots l).partner z = s.partner z := rfl
@[simp] theorem setSlots_wheel (l : List Slot) (u : WheelIx) :
    (s.setSlots l).wheel u = s.wheel u := rfl
@[simp] theorem setSlots_currentPin (l : List Slot) (u : WheelIx) :
    (s.setSlots l).currentPin u = s.currentPin u := rfl
@[simp] theorem setSlots_log (l : List Slot) (k : LogSel) : (s.setSlots l).log k = s.log k := by cases k <;> rfl
@[simp] theorem setSlots_logByte (l : List Slot) (k : LogSel) (n : Nat) :
    (s.setSlots l).logByte k n = s.logByte k n := by simp [State.logByte]

/-! ### setRefl -/

@[simp] theorem setRefl_cfg (r : ReflectorSel) : (s.setRefl r).cfg = s.cfg := rfl
@[simp] theorem setRefl_slots (r : ReflectorSel) : (s.setRefl r).slots = s.slots := rfl
@[simp] theorem setRefl_refl (r : ReflectorSel) : (s.setRefl r).refl = r := rfl
@[simp] theorem setRefl_plug (r : ReflectorSel) : (s.setRefl r).plug = s.plug := rfl
@[simp] theorem setRefl_wheels (r : ReflectorSel) : (s.setRefl r).wheels = s.wheels := rfl
@[simp] theorem setRefl_loglen (r : ReflectorSel) : (s.setRefl r).loglen = s.loglen := rfl
@[simp] theorem setRefl_logPT (r : ReflectorSel) : (s.setRefl r).logPT = s.logPT := rfl
@[simp] theorem setRefl_logCT (r : ReflectorSel) : (s.setRefl r).logCT = s.logCT := rfl
@[simp] theorem setRefl_errf (r : ReflectorSel) : (s.setRefl r).errf = s.errf := rfl
@[simp] theorem setRefl_rsp (r : ReflectorSel) : (s.setRefl r).rsp = s.rsp := rfl
@[simp] theorem setRefl_wait (r : ReflectorSel) : (s.setRefl r).wait = s.wait := rfl
@[simp] theorem setRefl_pins (r : ReflectorSel) : (s.setRefl r).pins = s.pins := rfl
@[simp] theorem setRefl_latencies (r : ReflectorSel) : (s.setRefl r).latencies = s.latencies := rfl
@[simp] theorem setRefl_taken (r : ReflectorSel) : (s.setRefl r).taken = s.taken := rfl
@[simp] theorem setRefl_slot (r : ReflectorSel) (j : Nat) : (s.setRefl r).slot j = s.slot j := rfl
@[simp] theorem setRefl_partner (r : ReflectorSel) (z : Letter) :
    (s.setRefl r).partner z = s.partner z := rfl
@[simp] theorem setRefl_wheel (r : ReflectorSel) (u : WheelIx) :
    (s.setRefl r).wheel u = s.wheel u := rfl
@[simp] theorem setRefl_currentPin (r : ReflectorSel) (u : WheelIx) :
    (s.setRefl r).currentPin u = s.currentPin u := rfl
@[simp] theorem setRefl_log (r : ReflectorSel) (k : LogSel) : (s.setRefl r).log k = s.log k := by cases k <;> rfl
@[simp] theorem setRefl_logByte (r : ReflectorSel) (k : LogSel) (n : Nat) :
    (s.setRefl r).logByte k n = s.logByte k n := by simp [State.logByte]

/-! ### setPartner -/

@[simp] theorem setPartner_cfg (x y : Letter) : (s.setPartner x y).cfg = s.cfg := rfl
@[simp] theorem setPartner_slots (x y : Letter) : (s.setPartner x y).slots = s.slots := rfl
@[simp] theorem setPartner_refl (x y : Letter) : (s.setPartner x y).refl = s.refl := rfl
@[simp] theorem setPartner_plug (x y : Letter) : (s.setPartner x y).plug = s.plug.set x y := rfl
@[simp] theorem setPartner_wheels (x y : Letter) : (s.setPartner x y).wheels = s.wheels := rfl
@[simp] theorem setPartner_loglen (x y : Letter) : (s.setPartner x y).loglen = s.loglen := rfl
@[simp] theorem setPartner_logPT (x y : Letter) : (s.setPartner x y).logPT = s.logPT := rfl
@[simp] theorem setPartner_logCT (x y : Letter) : (s.setPartner x y).logCT = s.logCT := rfl
@[simp] theorem setPartner_errf (x y : Letter) : (s.setPartner x y).errf = s.errf := rfl
@[simp] theorem setPartner_rsp (x y : Letter) : (s.setPartner x y).rsp = s.rsp := rfl
@[simp] theorem setPartner_wait (x y : Letter) : (s.setPartner x y).wait = s.wait := rfl
@[simp] theorem setPartner_pins (x y : Letter) : (s.setPartner x y).pins = s.pins := rfl
@[simp] theorem setPartner_latencies (x y : Letter) :
    (s.setPartner x y).latencies = s.latencies := rfl
@[simp] theorem setPartner_taken (x y : Letter) : (s.setPartner x y).taken = s.taken := rfl
@[simp] theorem setPartner_slot (x y : Letter) (j : Nat) :
    (s.setPartner x y).slot j = s.slot j := rfl
@[simp] theorem setPartner_wheel (x y : Letter) (u : WheelIx) :
    (s.setPartner x y).wheel u = s.wheel u := rfl
@[simp] theorem setPartner_currentPin (x y : Letter) (u : WheelIx) :
    (s.setPartner x y).currentPin u = s.currentPin u := rfl
@[simp] theorem setPartner_log (x y : Letter) (k : LogSel) : (s.setPartner x y).log k = s.log k := by cases k <;> rfl
@[simp] theorem setPartner_logByte (x y : Letter) (k : LogSel) (n : Nat) :
    (s.setPartner x y).logByte k n = s.logByte k n := by simp [State.logByte]

/-! ### setWheel -/

@[simp] theorem setWheel_cfg (w : WheelIx) (v : Wheel) : (s.setWheel w v).cfg = s.cfg := rfl
@[simp] theorem setWheel_slots (w : WheelIx) (v : Wheel) : (s.setWheel w v).slots = s.slots := rfl
@[simp] theorem setWheel_refl (w : WheelIx) (v : Wheel) : (s.setWheel w v).refl = s.refl := rfl
@[simp] theorem setWheel_plug (w : WheelIx) (v : Wheel) : (s.setWheel w v).plug = s.plug := rfl
@[simp] theorem setWheel_wheels (w : WheelIx) (v : Wheel) :
    (s.setWheel w v).wheels = s.wheels.set w v := rfl
@[simp] theorem setWheel_loglen (w : WheelIx) (v : Wheel) :
    (s.setWheel w v).loglen = s.loglen := rfl
@[simp] theorem setWheel_logPT (w : WheelIx) (v : Wheel) : (s.setWheel w v).logPT = s.logPT := rfl
@[simp] theorem setWheel_logCT (w : WheelIx) (v : Wheel) : (s.setWheel w v).logCT = s.logCT := rfl
@[simp] theorem setWheel_errf (w : WheelIx) (v : Wheel) : (s.setWheel w v).errf = s.errf := rfl
@[simp] theorem setWheel_rsp (w : WheelIx) (v : Wheel) : (s.setWheel w v).rsp = s.rsp := rfl
@[simp] theorem setWheel_wait (w : WheelIx) (v : Wheel) : (s.setWheel w v).wait = s.wait := rfl
@[simp] theorem setWheel_pins (w : WheelIx) (v : Wheel) : (s.setWheel w v).pins = s.pins := rfl
@[simp] theorem setWheel_latencies (w : WheelIx) (v : Wheel) :
    (s.setWheel w v).latencies = s.latencies := rfl
@[simp] theorem setWheel_taken (w : WheelIx) (v : Wheel) : (s.setWheel w v).taken = s.taken := rfl
@[simp] theorem setWheel_slot (w : WheelIx) (v : Wheel) (j : Nat) :
    (s.setWheel w v).slot j = s.slot j := rfl
@[simp] theorem setWheel_partner (w : WheelIx) (v : Wheel) (z : Letter) :
    (s.setWheel w v).partner z = s.partner z := rfl
@[simp] theorem setWheel_log (w : WheelIx) (v : Wheel) (k : LogSel) : (s.setWheel w v).log k = s.log k := by cases k <;> rfl
@[simp] theorem setWheel_logByte (w : WheelIx) (v : Wheel) (k : LogSel) (n : Nat) :
    (s.setWheel w v).logByte k n = s.logByte k n := by simp [State.logByte]

/-! ### setLoglen -/

@[simp] theorem setLoglen_cfg (m : Data) : (s.setLoglen m).cfg = s.cfg := rfl
@[simp] theorem setLoglen_slots (m : Data) : (s.setLoglen m).slots = s.slots := rfl
@[simp] theorem setLoglen_refl (m : Data) : (s.setLoglen m).refl = s.refl := rfl
@[simp] theorem setLoglen_plug (m : Data) : (s.setLoglen m).plug = s.plug := rfl
@[simp] theorem setLoglen_wheels (m : Data) : (s.setLoglen m).wheels = s.wheels := rfl
@[simp] theorem setLoglen_loglen (m : Data) : (s.setLoglen m).loglen = m := rfl
@[simp] theorem setLoglen_logPT (m : Data) : (s.setLoglen m).logPT = s.logPT := rfl
@[simp] theorem setLoglen_logCT (m : Data) : (s.setLoglen m).logCT = s.logCT := rfl
@[simp] theorem setLoglen_errf (m : Data) : (s.setLoglen m).errf = s.errf := rfl
@[simp] theorem setLoglen_rsp (m : Data) : (s.setLoglen m).rsp = s.rsp := rfl
@[simp] theorem setLoglen_wait (m : Data) : (s.setLoglen m).wait = s.wait := rfl
@[simp] theorem setLoglen_pins (m : Data) : (s.setLoglen m).pins = s.pins := rfl
@[simp] theorem setLoglen_latencies (m : Data) : (s.setLoglen m).latencies = s.latencies := rfl
@[simp] theorem setLoglen_taken (m : Data) : (s.setLoglen m).taken = s.taken := rfl
@[simp] theorem setLoglen_slot (m : Data) (j : Nat) : (s.setLoglen m).slot j = s.slot j := rfl
@[simp] theorem setLoglen_partner (m : Data) (z : Letter) :
    (s.setLoglen m).partner z = s.partner z := rfl
@[simp] theorem setLoglen_wheel (m : Data) (u : WheelIx) :
    (s.setLoglen m).wheel u = s.wheel u := rfl
@[simp] theorem setLoglen_currentPin (m : Data) (u : WheelIx) :
    (s.setLoglen m).currentPin u = s.currentPin u := rfl
@[simp] theorem setLoglen_log (m : Data) (k : LogSel) : (s.setLoglen m).log k = s.log k := by cases k <;> rfl
@[simp] theorem setLoglen_logByte (m : Data) (k : LogSel) (n : Nat) :
    (s.setLoglen m).logByte k n = s.logByte k n := by simp [State.logByte]

/-! ### dropPins -/

@[simp] theorem dropPins_cfg : (s.dropPins).cfg = s.cfg := rfl
@[simp] theorem dropPins_slots : (s.dropPins).slots = s.slots := rfl
@[simp] theorem dropPins_refl : (s.dropPins).refl = s.refl := rfl
@[simp] theorem dropPins_plug : (s.dropPins).plug = s.plug := rfl
@[simp] theorem dropPins_wheels : (s.dropPins).wheels = s.wheels := rfl
@[simp] theorem dropPins_loglen : (s.dropPins).loglen = s.loglen := rfl
@[simp] theorem dropPins_logPT : (s.dropPins).logPT = s.logPT := rfl
@[simp] theorem dropPins_logCT : (s.dropPins).logCT = s.logCT := rfl
@[simp] theorem dropPins_errf : (s.dropPins).errf = s.errf := rfl
@[simp] theorem dropPins_rsp : (s.dropPins).rsp = s.rsp := rfl
@[simp] theorem dropPins_wait : (s.dropPins).wait = s.wait := rfl
@[simp] theorem dropPins_pins : (s.dropPins).pins = s.pins.tail := rfl
@[simp] theorem dropPins_latencies : (s.dropPins).latencies = s.latencies := rfl
@[simp] theorem dropPins_taken : (s.dropPins).taken = s.taken := rfl
@[simp] theorem dropPins_slot (j : Nat) : (s.dropPins).slot j = s.slot j := rfl
@[simp] theorem dropPins_partner (z : Letter) : (s.dropPins).partner z = s.partner z := rfl
@[simp] theorem dropPins_wheel (u : WheelIx) : (s.dropPins).wheel u = s.wheel u := rfl
@[simp] theorem dropPins_currentPin (u : WheelIx) :
    (s.dropPins).currentPin u = s.currentPin u := rfl
@[simp] theorem dropPins_log (k : LogSel) : (s.dropPins).log k = s.log k := by cases k <;> rfl
@[simp] theorem dropPins_logByte (k : LogSel) (n : Nat) :
    (s.dropPins).logByte k n = s.logByte k n := by simp [State.logByte]

/-! ### startLatency -/

@[simp] theorem startLatency_cfg : (s.startLatency).cfg = s.cfg := rfl
@[simp] theorem startLatency_slots : (s.startLatency).slots = s.slots := rfl
@[simp] theorem startLatency_refl : (s.startLatency).refl = s.refl := rfl
@[simp] theorem startLatency_plug : (s.startLatency).plug = s.plug := rfl
@[simp] theorem startLatency_wheels : (s.startLatency).wheels = s.wheels := rfl
@[simp] theorem startLatency_loglen : (s.startLatency).loglen = s.loglen := rfl
@[simp] theorem startLatency_logPT : (s.startLatency).logPT = s.logPT := rfl
@[simp] theorem startLatency_logCT : (s.startLatency).logCT = s.logCT := rfl
@[simp] theorem startLatency_errf : (s.startLatency).errf = s.errf := rfl
@[simp] theorem startLatency_rsp : (s.startLatency).rsp = s.rsp := rfl
@[simp] theorem startLatency_wait : (s.startLatency).wait = s.latencies.headD 0 := rfl
@[simp] theorem startLatency_pins : (s.startLatency).pins = s.pins := rfl
@[simp] theorem startLatency_latencies : (s.startLatency).latencies = s.latencies.tail := rfl
@[simp] theorem startLatency_taken : (s.startLatency).taken = s.taken := rfl
@[simp] theorem startLatency_slot (j : Nat) : (s.startLatency).slot j = s.slot j := rfl
@[simp] theorem startLatency_partner (z : Letter) : (s.startLatency).partner z = s.partner z := rfl
@[simp] theorem startLatency_wheel (u : WheelIx) : (s.startLatency).wheel u = s.wheel u := rfl
@[simp] theorem startLatency_currentPin (u : WheelIx) :
    (s.startLatency).currentPin u = s.currentPin u := rfl
@[simp] theorem startLatency_log (k : LogSel) : (s.startLatency).log k = s.log k := by cases k <;> rfl
@[simp] theorem startLatency_logByte (k : LogSel) (n : Nat) :
    (s.startLatency).logByte k n = s.logByte k n := by simp [State.logByte]

/-! ### countDown -/

@[simp] theorem countDown_cfg : (s.countDown).cfg = s.cfg := rfl
@[simp] theorem countDown_slots : (s.countDown).slots = s.slots := rfl
@[simp] theorem countDown_refl : (s.countDown).refl = s.refl := rfl
@[simp] theorem countDown_plug : (s.countDown).plug = s.plug := rfl
@[simp] theorem countDown_wheels : (s.countDown).wheels = s.wheels := rfl
@[simp] theorem countDown_loglen : (s.countDown).loglen = s.loglen := rfl
@[simp] theorem countDown_logPT : (s.countDown).logPT = s.logPT := rfl
@[simp] theorem countDown_logCT : (s.countDown).logCT = s.logCT := rfl
@[simp] theorem countDown_errf : (s.countDown).errf = s.errf := rfl
@[simp] theorem countDown_rsp : (s.countDown).rsp = s.rsp := rfl
@[simp] theorem countDown_wait : (s.countDown).wait = s.wait - 1 := rfl
@[simp] theorem countDown_pins : (s.countDown).pins = s.pins := rfl
@[simp] theorem countDown_latencies : (s.countDown).latencies = s.latencies := rfl
@[simp] theorem countDown_taken : (s.countDown).taken = s.taken := rfl
@[simp] theorem countDown_slot (j : Nat) : (s.countDown).slot j = s.slot j := rfl
@[simp] theorem countDown_partner (z : Letter) : (s.countDown).partner z = s.partner z := rfl
@[simp] theorem countDown_wheel (u : WheelIx) : (s.countDown).wheel u = s.wheel u := rfl
@[simp] theorem countDown_currentPin (u : WheelIx) :
    (s.countDown).currentPin u = s.currentPin u := rfl
@[simp] theorem countDown_log (k : LogSel) : (s.countDown).log k = s.log k := by cases k <;> rfl
@[simp] theorem countDown_logByte (k : LogSel) (n : Nat) :
    (s.countDown).logByte k n = s.logByte k n := by simp [State.logByte]

/-! ### takeResponse -/

@[simp] theorem takeResponse_cfg (r : Word) : (s.takeResponse r).cfg = s.cfg := rfl
@[simp] theorem takeResponse_slots (r : Word) : (s.takeResponse r).slots = s.slots := rfl
@[simp] theorem takeResponse_refl (r : Word) : (s.takeResponse r).refl = s.refl := rfl
@[simp] theorem takeResponse_plug (r : Word) : (s.takeResponse r).plug = s.plug := rfl
@[simp] theorem takeResponse_wheels (r : Word) : (s.takeResponse r).wheels = s.wheels := rfl
@[simp] theorem takeResponse_loglen (r : Word) : (s.takeResponse r).loglen = s.loglen := rfl
@[simp] theorem takeResponse_logPT (r : Word) : (s.takeResponse r).logPT = s.logPT := rfl
@[simp] theorem takeResponse_logCT (r : Word) : (s.takeResponse r).logCT = s.logCT := rfl
@[simp] theorem takeResponse_errf (r : Word) : (s.takeResponse r).errf = s.errf := rfl
@[simp] theorem takeResponse_rsp (r : Word) : (s.takeResponse r).rsp = none := rfl
@[simp] theorem takeResponse_wait (r : Word) : (s.takeResponse r).wait = s.wait := rfl
@[simp] theorem takeResponse_pins (r : Word) : (s.takeResponse r).pins = s.pins := rfl
@[simp] theorem takeResponse_latencies (r : Word) :
    (s.takeResponse r).latencies = s.latencies := rfl
@[simp] theorem takeResponse_taken (r : Word) : (s.takeResponse r).taken = r :: s.taken := rfl
@[simp] theorem takeResponse_slot (r : Word) (j : Nat) : (s.takeResponse r).slot j = s.slot j := rfl
@[simp] theorem takeResponse_partner (r : Word) (z : Letter) :
    (s.takeResponse r).partner z = s.partner z := rfl
@[simp] theorem takeResponse_wheel (r : Word) (u : WheelIx) :
    (s.takeResponse r).wheel u = s.wheel u := rfl
@[simp] theorem takeResponse_currentPin (r : Word) (u : WheelIx) :
    (s.takeResponse r).currentPin u = s.currentPin u := rfl
@[simp] theorem takeResponse_log (r : Word) (k : LogSel) : (s.takeResponse r).log k = s.log k := by cases k <;> rfl
@[simp] theorem takeResponse_logByte (r : Word) (k : LogSel) (n : Nat) :
    (s.takeResponse r).logByte k n = s.logByte k n := by simp [State.logByte]

/-! ### stepRotors -/

@[simp] theorem stepRotors_cfg : (s.stepRotors).cfg = s.cfg := rfl
@[simp] theorem stepRotors_slots :
    (s.stepRotors).slots = stepChain s.cfg s.slots.length s.slots := rfl
@[simp] theorem stepRotors_refl : (s.stepRotors).refl = s.refl := rfl
@[simp] theorem stepRotors_plug : (s.stepRotors).plug = s.plug := rfl
@[simp] theorem stepRotors_wheels : (s.stepRotors).wheels = s.wheels := rfl
@[simp] theorem stepRotors_loglen : (s.stepRotors).loglen = s.loglen := rfl
@[simp] theorem stepRotors_logPT : (s.stepRotors).logPT = s.logPT := rfl
@[simp] theorem stepRotors_logCT : (s.stepRotors).logCT = s.logCT := rfl
@[simp] theorem stepRotors_errf : (s.stepRotors).errf = s.errf := rfl
@[simp] theorem stepRotors_rsp : (s.stepRotors).rsp = s.rsp := rfl
@[simp] theorem stepRotors_wait : (s.stepRotors).wait = s.wait := rfl
@[simp] theorem stepRotors_pins : (s.stepRotors).pins = s.pins := rfl
@[simp] theorem stepRotors_latencies : (s.stepRotors).latencies = s.latencies := rfl
@[simp] theorem stepRotors_taken : (s.stepRotors).taken = s.taken := rfl
@[simp] theorem stepRotors_partner (z : Letter) : (s.stepRotors).partner z = s.partner z := rfl
@[simp] theorem stepRotors_wheel (u : WheelIx) : (s.stepRotors).wheel u = s.wheel u := rfl
@[simp] theorem stepRotors_currentPin (u : WheelIx) :
    (s.stepRotors).currentPin u = s.currentPin u := rfl
@[simp] theorem stepRotors_log (k : LogSel) : (s.stepRotors).log k = s.log k := by cases k <;> rfl
@[simp] theorem stepRotors_logByte (k : LogSel) (n : Nat) :
    (s.stepRotors).logByte k n = s.logByte k n := by simp [State.logByte]

/-! ### setLog -/

@[simp] theorem setLog_cfg (l : LogSel) (m : LogMem) : (s.setLog l m).cfg = s.cfg := by cases l <;> rfl
@[simp] theorem setLog_slots (l : LogSel) (m : LogMem) : (s.setLog l m).slots = s.slots := by cases l <;> rfl
@[simp] theorem setLog_refl (l : LogSel) (m : LogMem) : (s.setLog l m).refl = s.refl := by cases l <;> rfl
@[simp] theorem setLog_plug (l : LogSel) (m : LogMem) : (s.setLog l m).plug = s.plug := by cases l <;> rfl
@[simp] theorem setLog_wheels (l : LogSel) (m : LogMem) : (s.setLog l m).wheels = s.wheels := by cases l <;> rfl
@[simp] theorem setLog_loglen (l : LogSel) (m : LogMem) : (s.setLog l m).loglen = s.loglen := by cases l <;> rfl
@[simp] theorem setLog_errf (l : LogSel) (m : LogMem) : (s.setLog l m).errf = s.errf := by cases l <;> rfl
@[simp] theorem setLog_rsp (l : LogSel) (m : LogMem) : (s.setLog l m).rsp = s.rsp := by cases l <;> rfl
@[simp] theorem setLog_wait (l : LogSel) (m : LogMem) : (s.setLog l m).wait = s.wait := by cases l <;> rfl
@[simp] theorem setLog_pins (l : LogSel) (m : LogMem) : (s.setLog l m).pins = s.pins := by cases l <;> rfl
@[simp] theorem setLog_latencies (l : LogSel) (m : LogMem) : (s.setLog l m).latencies = s.latencies := by cases l <;> rfl
@[simp] theorem setLog_taken (l : LogSel) (m : LogMem) : (s.setLog l m).taken = s.taken := by cases l <;> rfl
@[simp] theorem setLog_log_same (l : LogSel) (m : LogMem) : (s.setLog l m).log l = m := by
  cases l <;> rfl
theorem setLog_log_other (l k : LogSel) (m : LogMem) (h : k ≠ l) :
    (s.setLog l m).log k = s.log k := by
  cases l <;> cases k <;> first | rfl | exact absurd rfl h

/-! ### Writes read back -/

theorem setSlot_slot_same (i : Nat) (v : Slot) (h : i < s.slots.length) :
    (s.setSlot i v).slot i = v := by
  simp [State.slot, h]
theorem setSlot_slot_other (i j : Nat) (v : Slot) (h : i ≠ j) :
    (s.setSlot i v).slot j = s.slot j := by
  simp [State.slot, List.getElem?_set_ne h]
theorem setPartner_partner (x y z : Letter) :
    (s.setPartner x y).partner z = if z = x then y else s.partner z := by
  by_cases h : z = x
  · subst h; simp [State.partner]
  · have hv : x.val ≠ z.val := fun e => h (Fin.ext e.symm)
    simp [State.partner, h, Vector.getElem_set_ne _ _ hv]
theorem setWheel_wheel (w u : WheelIx) (v : Wheel) :
    (s.setWheel w v).wheel u = if u = w then v else s.wheel u := by
  by_cases h : u = w
  · subst h; simp [State.wheel]
  · have hv : w.val ≠ u.val := fun e => h (Fin.ext e.symm)
    simp [State.wheel, h, Vector.getElem_set_ne _ _ hv]

/-! ### The states after reset -/

@[simp] theorem resetFor_cfg (c : Config) : (State.resetFor c).cfg = c := rfl
@[simp] theorem resetFor_slots (c : Config) : (State.resetFor c).slots = List.replicate c.nrot Slot.unfitted := rfl
@[simp] theorem resetFor_refl (c : Config) : (State.resetFor c).refl = ⟨false, 0⟩ := rfl
@[simp] theorem resetFor_plug (c : Config) : (State.resetFor c).plug = emptyPlug := rfl
@[simp] theorem resetFor_wheels (c : Config) : (State.resetFor c).wheels = zeroWheels c.wheelSizes := rfl
@[simp] theorem resetFor_loglen (c : Config) : (State.resetFor c).loglen = 0 := rfl
@[simp] theorem resetFor_logPT (c : Config) : (State.resetFor c).logPT = [] := rfl
@[simp] theorem resetFor_logCT (c : Config) : (State.resetFor c).logCT = [] := rfl
@[simp] theorem resetFor_errf (c : Config) : (State.resetFor c).errf = 0 := rfl
@[simp] theorem resetFor_rsp (c : Config) : (State.resetFor c).rsp = none := rfl
@[simp] theorem resetFor_wait (c : Config) : (State.resetFor c).wait = 0 := rfl
@[simp] theorem resetFor_pins (c : Config) : (State.resetFor c).pins = [] := rfl
@[simp] theorem resetFor_latencies (c : Config) : (State.resetFor c).latencies = [] := rfl
@[simp] theorem resetFor_taken (c : Config) : (State.resetFor c).taken = [] := rfl
@[simp] theorem hardReset_cfg : s.hardReset.cfg = s.cfg := rfl
@[simp] theorem hardReset_slots : s.hardReset.slots = List.replicate s.cfg.nrot Slot.unfitted := rfl
@[simp] theorem hardReset_refl : s.hardReset.refl = ⟨false, 0⟩ := rfl
@[simp] theorem hardReset_plug : s.hardReset.plug = emptyPlug := rfl
@[simp] theorem hardReset_wheels : s.hardReset.wheels = zeroWheels s.cfg.wheelSizes := rfl
@[simp] theorem hardReset_loglen : s.hardReset.loglen = 0 := rfl
@[simp] theorem hardReset_logPT : s.hardReset.logPT = [] := rfl
@[simp] theorem hardReset_logCT : s.hardReset.logCT = [] := rfl
@[simp] theorem hardReset_errf : s.hardReset.errf = 0 := rfl
@[simp] theorem hardReset_rsp : s.hardReset.rsp = none := rfl
@[simp] theorem hardReset_wait : s.hardReset.wait = 0 := rfl
@[simp] theorem hardReset_pins : s.hardReset.pins = s.pins := rfl
@[simp] theorem hardReset_latencies : s.hardReset.latencies = s.latencies := rfl
@[simp] theorem hardReset_taken : s.hardReset.taken = s.taken := rfl

end Sys2Proof.Machine
end

