-- ==== Sys2Proof/Laws/Memory.lean ====
section
/-!
SUPPORT. The log memory: a write keeps the canonical form, reads back, and leaves every other cell
alone; and what MemRead, MemWrite and the append of both logs do.
-/

namespace Sys2Proof.Machine

/-- A write reads back. -/
@[simp] theorem logLookup_insert_same (m : LogMem) (n : Nat) (v : Byte) :
    logLookup (logInsert m n v) n = some v := by
  induction m with
  | nil => simp [logInsert, logLookup]
  | cons c rest ih =>
    obtain ⟨k, u⟩ := c
    simp only [logInsert]
    split
    · simp [logLookup]
    · split
      · simp [logLookup]
      · next h => simp [logLookup, h, ih]

/-- A write leaves every other index alone. -/
theorem logLookup_insert_other (m : LogMem) (n k : Nat) (v : Byte) (h : k ≠ n) :
    logLookup (logInsert m n v) k = logLookup m k := by
  induction m with
  | nil => simp [logInsert, logLookup, h.symm]
  | cons c rest ih =>
    obtain ⟨j, u⟩ := c
    simp only [logInsert]
    split
    · simp [logLookup, h.symm]
    · split
      · next hj => subst hj; simp [logLookup, h.symm]
      · simp [logLookup, ih]

/-- What stands first after a write is the new cell or what stood first. -/
theorem logInsert_head (m : LogMem) (n : Nat) (v : Byte) :
    ∃ c rest, logInsert m n v = c :: rest ∧ (c.1 = n ∨ ∃ d tl, m = d :: tl ∧ c.1 = d.1) := by
  cases m with
  | nil => exact ⟨(n, v), [], rfl, .inl rfl⟩
  | cons d tl =>
    obtain ⟨k, u⟩ := d
    simp only [logInsert]
    split
    · exact ⟨_, _, rfl, .inl rfl⟩
    · split
      · exact ⟨_, _, rfl, .inl rfl⟩
      · exact ⟨_, _, rfl, .inr ⟨_, _, rfl, rfl⟩⟩

/-- A canonical log is its first cell below a canonical rest. -/
theorem logCanonical_cons (c : Host.Cell) (rest : LogMem) :
    logCanonical (c :: rest) = true ↔
      logCanonical rest = true ∧ ∀ d tl, rest = d :: tl → c.1 < d.1 := by
  cases rest with
  | nil => simp [logCanonical]
  | cons d tl =>
    simp only [logCanonical, Bool.and_eq_true, decide_eq_true_eq]
    constructor
    · rintro ⟨h1, h2⟩
      exact ⟨h2, fun d' tl' e => by obtain ⟨rfl, _⟩ := List.cons.inj e; exact h1⟩
    · rintro ⟨h2, h1⟩
      exact ⟨h1 d tl rfl, h2⟩

/-- A write keeps the canonical form. -/
theorem logCanonical_insert (m : LogMem) (n : Nat) (v : Byte) (h : logCanonical m = true) :
    logCanonical (logInsert m n v) = true := by
  induction m with
  | nil => rfl
  | cons c rest ih =>
    obtain ⟨k, u⟩ := c
    obtain ⟨hrest, hlt⟩ := (logCanonical_cons _ _).1 h
    simp only [logInsert]
    split
    · next hn =>
      exact (logCanonical_cons _ _).2 ⟨h, fun d tl e => by
        obtain ⟨rfl, _⟩ := List.cons.inj e; exact hn⟩
    · split
      · next hk => subst hk; exact (logCanonical_cons _ _).2 ⟨hrest, hlt⟩
      · next hn hk =>
        refine (logCanonical_cons _ _).2 ⟨ih hrest, fun d tl e => ?_⟩
        obtain ⟨c', rest', he, hc⟩ := logInsert_head rest n v
        obtain ⟨rfl, _⟩ := List.cons.inj (he.symm.trans e)
        rcases hc with hc | ⟨d', tl', hd, hc⟩
        · show k < c'.1; omega
        · have := hlt d' tl' hd
          show k < c'.1
          simp only at this; omega

/-- The logs after reset are in canonical form. -/
theorem reset_logs_canonical (c : Config) (l : LogSel) :
    logCanonical ((State.resetFor c).log l) = true := by
  cases l <;> rfl

variable (s : State)

/-- What a log reads as after a write to it. -/
theorem logByte_setLog_insert (l k : LogSel) (n j : Nat) (v : Byte) :
    (s.setLog l (logInsert (s.log l) n v)).logByte k j =
      if k = l ∧ j = n then v else s.logByte k j := by
  by_cases hk : k = l
  · subst hk
    by_cases hj : j = n
    · subst hj; simp [State.logByte]
    · simp [State.logByte, hj, logLookup_insert_other _ _ _ _ hj]
  · simp [State.logByte, hk, setLog_log_other s l k _ hk]

/-- MemRead inside the array. -/
theorem memRead_ok (l : LogSel) (n : Nat) (h : n < s.cfg.logDepth) :
    s.memRead l n = .ok (s.logByte l n) := by
  simp [State.memRead, h]

/-- MemWrite inside the array. -/
theorem memWrite_ok (l : LogSel) (n : Nat) (v : Byte) (h : n < s.cfg.logDepth) :
    s.memWrite l n v = .ok (s.setLog l (logInsert (s.log l) n v)) := by
  simp [State.memWrite, h]

/-- The state after both logs were appended to. -/
def State.appended (s : State) (p c : Byte) : State :=
  { s with
    logPT := logInsert s.logPT s.loglen.toNat p
    logCT := logInsert s.logCT s.loglen.toNat c
    loglen := s.loglen + 1 }

/-- Appending while there is room. -/
theorem appendLogs_ok (p c : Byte) (h : s.loglen.toNat < s.cfg.logDepth) :
    s.appendLogs p c = .ok (s.appended p c) := by
  simp [State.appendLogs, State.memWrite, h, State.setLog, State.log, State.setLoglen,
    State.appended]

/-- Everything an append can do. -/
theorem appendLogs_cases (p c : Byte) :
    (s.loglen.toNat < s.cfg.logDepth ∧ s.appendLogs p c = .ok (s.appended p c)) ∨
      (s.cfg.logDepth ≤ s.loglen.toNat ∧ s.appendLogs p c = .error .noLogEntry) := by
  by_cases h : s.loglen.toNat < s.cfg.logDepth
  · exact .inl ⟨h, appendLogs_ok s p c h⟩
  · exact .inr ⟨by omega, by simp [State.appendLogs, State.memWrite, h]⟩

end Sys2Proof.Machine
end

