-- ==== Sys2Proof/Laws/Words.lean ====
section
/-!
SUPPORT. Words, fields and responses: packing and unpacking agree, and what the fields of a response
are.
-/

namespace Sys2Proof

/-- Bit `i` of the word `{op, idx, b, a}`. -/
theorem toWord_getLsbD (f : Fields) (i : Nat) :
    f.toWord.getLsbD i = if i < 8 then f.a.getLsbD i else if i < 16 then f.b.getLsbD (i - 8)
      else if i < 24 then f.idx.getLsbD (i - 16) else f.op.getLsbD (i - 24) := by
  simp only [Fields.toWord, BitVec.getLsbD_append]
  grind

@[simp] theorem fields_ofWord_toWord (f : Fields) : Fields.ofWord f.toWord = f := by
  obtain ⟨op, idx, b, a⟩ := f
  simp only [Fields.ofWord, Fields.mk.injEq]
  refine ⟨?_, ?_, ?_, ?_⟩ <;> apply BitVec.eq_of_getLsbD_eq <;> intro i hi <;>
    simp only [BitVec.getLsbD_extractLsb', toWord_getLsbD] <;> grind

@[simp] theorem fields_toWord_ofWord (w : Word) : (Fields.ofWord w).toWord = w := by
  apply BitVec.eq_of_getLsbD_eq
  intro i hi
  simp only [toWord_getLsbD, Fields.ofWord, BitVec.getLsbD_extractLsb']
  grind

/-- The two bytes of `n`, put together again. -/
@[simp] theorem n_of_bytes (op idx : Byte) (n : Data) :
    Fields.n ⟨op, idx, n.extractLsb' 8 8, n.extractLsb' 0 8⟩ = n := by
  apply BitVec.eq_of_getLsbD_eq
  intro i hi
  simp only [Fields.n, BitVec.getLsbD_append, BitVec.getLsbD_extractLsb']
  grind

namespace Machine

/-- Bit `i` of a response word. -/
theorem responseWord_getLsbD (c : Byte) (d : Data) (i : Nat) :
    (responseWord c d).getLsbD i =
      if i < 16 then d.getLsbD i else if i < 24 then false else c.getLsbD (i - 24) := by
  simp only [responseWord, BitVec.getLsbD_append]
  grind

@[simp] theorem status_responseWord (c : Byte) (d : Data) :
    responseStatus (responseWord c d) = c := by
  apply BitVec.eq_of_getLsbD_eq
  intro i hi
  simp only [responseStatus, BitVec.getLsbD_extractLsb', responseWord_getLsbD]
  grind

@[simp] theorem data_responseWord (c : Byte) (d : Data) : responseData (responseWord c d) = d := by
  apply BitVec.eq_of_getLsbD_eq
  intro i hi
  simp only [responseData, BitVec.getLsbD_extractLsb', responseWord_getLsbD]
  grind

@[simp] theorem middle_responseWord (c : Byte) (d : Data) :
    (responseWord c d).extractLsb' 16 8 = 0#8 := by
  apply BitVec.eq_of_getLsbD_eq
  intro i hi
  simp only [BitVec.getLsbD_extractLsb', responseWord_getLsbD, BitVec.getLsbD_zero]
  grind

@[simp] theorem status_okResponse (d : Data) : responseStatus (okResponse d) = 0 := by
  simp [okResponse]

@[simp] theorem data_okResponse (d : Data) : responseData (okResponse d) = d := by
  simp [okResponse]

@[simp] theorem status_errorResponse (e : ErrorStatus) :
    responseStatus (errorResponse e) = e.code := by
  simp [errorResponse]

theorem errorCode_ne_zero (e : ErrorStatus) : e.code ≠ 0 := by cases e <;> decide

theorem errorCode_le_seven (e : ErrorStatus) : e.code.toNat ≤ 7 := by cases e <;> decide

end Machine

end Sys2Proof
end

