-- ==== Sys2Proof/Laws/PerInstr.lean ====
section
/-!
SUPPORT. Per command: the decoder reads a command's own fields back. What the opcode table holds is
settled here once, so that no later proof evaluates it.
-/

namespace Sys2Proof.Laws.Encoding

/-- The decoder makes of a command's fields that command (spec 30 R74, R75). -/
def Statement (i : Instr) : Prop := decodeFields i.fields = .ok i

theorem nop : Statement .nop := by
  simp [Statement, Instr.fields, decodeFields, opcodeTable, controlRows, enigmaRows, lorenzRows,
    baudotRows, OpRow.unusedZero]

theorem geterr : Statement .geterr := by
  simp [Statement, Instr.fields, decodeFields, opcodeTable, controlRows, enigmaRows, lorenzRows,
    baudotRows, OpRow.unusedZero]

theorem clrerr : Statement .clrerr := by
  simp [Statement, Instr.fields, decodeFields, opcodeTable, controlRows, enigmaRows, lorenzRows,
    baudotRows, OpRow.unusedZero]

theorem info (idx : Byte) : Statement (.info idx) := by
  simp [Statement, Instr.fields, decodeFields, opcodeTable, controlRows, enigmaRows, lorenzRows,
    baudotRows, OpRow.unusedZero]

theorem eEnter (a : Byte) : Statement (.eEnter a) := by
  simp [Statement, Instr.fields, decodeFields, opcodeTable, controlRows, enigmaRows, lorenzRows,
    baudotRows, OpRow.unusedZero]

theorem eXform (a : Byte) : Statement (.eXform a) := by
  simp [Statement, Instr.fields, decodeFields, opcodeTable, controlRows, enigmaRows, lorenzRows,
    baudotRows, OpRow.unusedZero]

theorem eSetrot (idx : Byte) (a : Byte) : Statement (.eSetrot idx a) := by
  simp [Statement, Instr.fields, decodeFields, opcodeTable, controlRows, enigmaRows, lorenzRows,
    baudotRows, OpRow.unusedZero]

theorem eGetrot (idx : Byte) : Statement (.eGetrot idx) := by
  simp [Statement, Instr.fields, decodeFields, opcodeTable, controlRows, enigmaRows, lorenzRows,
    baudotRows, OpRow.unusedZero]

theorem eSetpos (idx : Byte) (a : Byte) : Statement (.eSetpos idx a) := by
  simp [Statement, Instr.fields, decodeFields, opcodeTable, controlRows, enigmaRows, lorenzRows,
    baudotRows, OpRow.unusedZero]

theorem eGetpos (idx : Byte) : Statement (.eGetpos idx) := by
  simp [Statement, Instr.fields, decodeFields, opcodeTable, controlRows, enigmaRows, lorenzRows,
    baudotRows, OpRow.unusedZero]

theorem eSetlat (idx : Byte) (a : Byte) : Statement (.eSetlat idx a) := by
  simp [Statement, Instr.fields, decodeFields, opcodeTable, controlRows, enigmaRows, lorenzRows,
    baudotRows, OpRow.unusedZero]

theorem eGetlat (idx : Byte) : Statement (.eGetlat idx) := by
  simp [Statement, Instr.fields, decodeFields, opcodeTable, controlRows, enigmaRows, lorenzRows,
    baudotRows, OpRow.unusedZero]

theorem eSetref (a : Byte) : Statement (.eSetref a) := by
  simp [Statement, Instr.fields, decodeFields, opcodeTable, controlRows, enigmaRows, lorenzRows,
    baudotRows, OpRow.unusedZero]

theorem eGetref : Statement .eGetref := by
  simp [Statement, Instr.fields, decodeFields, opcodeTable, controlRows, enigmaRows, lorenzRows,
    baudotRows, OpRow.unusedZero]

theorem eAddpr (a : Byte) (b : Byte) : Statement (.eAddpr a b) := by
  simp [Statement, Instr.fields, decodeFields, opcodeTable, controlRows, enigmaRows, lorenzRows,
    baudotRows, OpRow.unusedZero]

theorem eRempr (a : Byte) (b : Byte) : Statement (.eRempr a b) := by
  simp [Statement, Instr.fields, decodeFields, opcodeTable, controlRows, enigmaRows, lorenzRows,
    baudotRows, OpRow.unusedZero]

theorem eGetplg (a : Byte) : Statement (.eGetplg a) := by
  simp [Statement, Instr.fields, decodeFields, opcodeTable, controlRows, enigmaRows, lorenzRows,
    baudotRows, OpRow.unusedZero]

theorem lProc (a : Byte) : Statement (.lProc a) := by
  simp [Statement, Instr.fields, decodeFields, opcodeTable, controlRows, enigmaRows, lorenzRows,
    baudotRows, OpRow.unusedZero]

theorem lXform (a : Byte) : Statement (.lXform a) := by
  simp [Statement, Instr.fields, decodeFields, opcodeTable, controlRows, enigmaRows, lorenzRows,
    baudotRows, OpRow.unusedZero]

theorem lSetpos (idx : Byte) (a : Byte) : Statement (.lSetpos idx a) := by
  simp [Statement, Instr.fields, decodeFields, opcodeTable, controlRows, enigmaRows, lorenzRows,
    baudotRows, OpRow.unusedZero]

theorem lGetpos (idx : Byte) : Statement (.lGetpos idx) := by
  simp [Statement, Instr.fields, decodeFields, opcodeTable, controlRows, enigmaRows, lorenzRows,
    baudotRows, OpRow.unusedZero]

theorem lSetpin (idx : Byte) (a : Byte) : Statement (.lSetpin idx a) := by
  simp [Statement, Instr.fields, decodeFields, opcodeTable, controlRows, enigmaRows, lorenzRows,
    baudotRows, OpRow.unusedZero]

theorem lGetpin (idx : Byte) : Statement (.lGetpin idx) := by
  simp [Statement, Instr.fields, decodeFields, opcodeTable, controlRows, enigmaRows, lorenzRows,
    baudotRows, OpRow.unusedZero]

theorem lLoglen : Statement .lLoglen := by
  simp [Statement, Instr.fields, decodeFields, opcodeTable, controlRows, enigmaRows, lorenzRows,
    baudotRows, OpRow.unusedZero]

theorem lLogrd (idx : Byte) (n : Data) : Statement (.lLogrd idx n) := by
  simp [Statement, Instr.fields, decodeFields, opcodeTable, controlRows, enigmaRows, lorenzRows,
    baudotRows, OpRow.unusedZero]

theorem lLogtrn (n : Data) : Statement (.lLogtrn n) := by
  simp [Statement, Instr.fields, decodeFields, opcodeTable, controlRows, enigmaRows, lorenzRows,
    baudotRows, OpRow.unusedZero]

theorem bEnc (a : Byte) : Statement (.bEnc a) := by
  simp [Statement, Instr.fields, decodeFields, opcodeTable, controlRows, enigmaRows, lorenzRows,
    baudotRows, OpRow.unusedZero]

theorem bDec (a : Byte) : Statement (.bDec a) := by
  simp [Statement, Instr.fields, decodeFields, opcodeTable, controlRows, enigmaRows, lorenzRows,
    baudotRows, OpRow.unusedZero]

theorem all (i : Instr) : Statement i := by
  cases i with
  | nop => exact nop
  | geterr => exact geterr
  | clrerr => exact clrerr
  | info idx => exact info idx
  | eEnter a => exact eEnter a
  | eXform a => exact eXform a
  | eSetrot idx a => exact eSetrot idx a
  | eGetrot idx => exact eGetrot idx
  | eSetpos idx a => exact eSetpos idx a
  | eGetpos idx => exact eGetpos idx
  | eSetlat idx a => exact eSetlat idx a
  | eGetlat idx => exact eGetlat idx
  | eSetref a => exact eSetref a
  | eGetref => exact eGetref
  | eAddpr a b => exact eAddpr a b
  | eRempr a b => exact eRempr a b
  | eGetplg a => exact eGetplg a
  | lProc a => exact lProc a
  | lXform a => exact lXform a
  | lSetpos idx a => exact lSetpos idx a
  | lGetpos idx => exact lGetpos idx
  | lSetpin idx a => exact lSetpin idx a
  | lGetpin idx => exact lGetpin idx
  | lLoglen => exact lLoglen
  | lLogrd idx n => exact lLogrd idx n
  | lLogtrn n => exact lLogtrn n
  | bEnc a => exact bEnc a
  | bDec a => exact bDec a

end Sys2Proof.Laws.Encoding
end

