-- ==== Sys2Proof/Laws/Answers.lean ====
section
/-!
SUPPORT. What the operands name, everything the shared operations of the commands can answer, and
everything one edge can do: the lemmas proofs about commands and steps cite.
-/

namespace Sys2Proof.Machine

/-! ### Operands -/

theorem slotIndex_some (c : Config) (idx : Byte) (h : idx.toNat < c.nrot) :
    slotIndex c idx = some idx.toNat := by simp [slotIndex, h]

theorem slotIndex_none (c : Config) (idx : Byte) (h : c.nrot ≤ idx.toNat) :
    slotIndex c idx = none := by simp [slotIndex]; omega

theorem wheelIndex_some (idx : Byte) (h : idx.toNat < 12) :
    wheelIndex idx = some ⟨idx.toNat, h⟩ := by simp [wheelIndex, h]

theorem wheelIndex_none (idx : Byte) (h : 12 ≤ idx.toNat) : wheelIndex idx = none := by
  simp [wheelIndex]; omega

theorem letterOperand_some (a : Byte) (h : a.toNat < 26) :
    letterOperand a = some ⟨a.toNat, h⟩ := by simp [letterOperand, h]

theorem letterOperand_none (a : Byte) (h : 26 ≤ a.toNat) : letterOperand a = none := by
  simp [letterOperand]; omega

theorem rotorId_some (a : Byte) (h : a.toNat < 8) : rotorId a = some ⟨a.toNat, h⟩ := by
  simp [rotorId, h]

theorem rotorId_none (a : Byte) (h : 8 ≤ a.toNat) : rotorId a = none := by
  simp [rotorId]; omega

theorem reflectorId_some (a : Byte) (h : a.toNat < 3) : reflectorId a = some ⟨a.toNat, h⟩ := by
  simp [reflectorId, h]

theorem reflectorId_none (a : Byte) (h : 3 ≤ a.toNat) : reflectorId a = none := by
  simp [reflectorId]; omega

theorem bitOperand_none (a : Byte) (h : 2 ≤ a.toNat) : bitOperand a = none := by
  unfold bitOperand; split <;> first | rfl | omega

theorem bitOperand_some (a : Byte) (h : a.toNat < 2) :
    bitOperand a = some (decide (a.toNat = 1)) := by
  unfold bitOperand; split <;> simp_all; omega

/-! ### The append of L_PROC -/

/-- Everything a logged command can answer. -/
theorem logged_cases (s : State) (p c : Byte) (after : State → State) (d : Data) :
    (s.loglen.toNat = s.cfg.logDepth ∧ s.logged p c after d = .next (s.raise .logfull)) ∨
      (s.loglen.toNat < s.cfg.logDepth ∧
        s.logged p c after d = .next ((after (s.appended p c)).respond d)) ∨
      (s.cfg.logDepth < s.loglen.toNat ∧ s.logged p c after d = .fault .noLogEntry) := by
  by_cases he : s.loglen.toNat = s.cfg.logDepth
  · exact .inl ⟨he, by simp [State.logged, State.logFull, he]⟩
  · rcases appendLogs_cases s p c with ⟨h, ha⟩ | ⟨h, ha⟩
    · exact .inr (.inl ⟨h, by simp [State.logged, State.logFull, he, ha]⟩)
    · exact .inr (.inr ⟨by omega, by simp [State.logged, State.logFull, he, ha]⟩)

/-! ### One edge -/

/-- Everything one edge can do (spec 70 R204). -/
theorem edge_cases (s : State) (p : PortIn) :
    (p.rst = true ∧ s.edge p = .next s.hardReset) ∨
      (p.rst = false ∧ s.rsp = none ∧ p.cmdValid = true ∧
        s.edge p = runWord p.cmd s.startLatency) ∨
      (p.rst = false ∧ s.rsp = none ∧ p.cmdValid = false ∧ s.edge p = .next s) ∨
      (∃ r, p.rst = false ∧ s.rsp = some r ∧ s.wait = 0 ∧ p.rspReady = true ∧
        s.edge p = .next (s.takeResponse r)) ∨
      (∃ r, p.rst = false ∧ s.rsp = some r ∧ s.wait = 0 ∧ p.rspReady = false ∧
        s.edge p = .next s) ∨
      (∃ r, p.rst = false ∧ s.rsp = some r ∧ s.wait ≠ 0 ∧ s.edge p = .next s.countDown) := by
  obtain ⟨rst, cv, cmd, rr⟩ := p
  cases rst
  · cases hr : s.rsp with
    | none => cases cv <;> simp [State.edge, hr]
    | some r =>
      by_cases hw : s.wait = 0
      · cases rr <;> simp [State.edge, hr, hw]
      · simp [State.edge, hr, hw]
  · simp [State.edge]

/-- The step of a well-formed instance is its edge. -/
theorem step_eq_edge (s : State) (h : s.cfg.wf = true) : step s = s.dropPins.edge s.pinsNow := by
  simp [step, h]

end Sys2Proof.Machine
end

