-- ==== Sys2Proof/Laws/Rotors.lean ====
section
/-!
SUPPORT. Stepping and the rotor transforms: what one call of Step does to a chain, what it never
changes, and what the inverse lookup finds.
-/

namespace Sys2Proof.Machine

variable (c : Config)

@[simp] theorem clearFirstLatch_length (l : List Slot) : (clearFirstLatch l).length = l.length := by
  cases l <;> rfl

/-- One call of Step on a chain with a rotor in it. -/
theorem stepChain_cons (n : Nat) (r : Slot) (rest : List Slot) :
    stepChain c (n + 1) (r :: rest) =
      let rest1 := if firstLatch rest && r.lat then clearFirstLatch (stepChain c n rest) else rest
      if !rest.isEmpty && atNotch c r then
        { r with lat := true }.advance :: stepChain c n rest1
      else r.advance :: rest1 := rfl

@[simp] theorem stepChain_nil (n : Nat) : stepChain c n [] = [] := by cases n <;> rfl

/-- Step keeps the number of slots. -/
@[simp] theorem stepChain_length (n : Nat) (l : List Slot) : (stepChain c n l).length = l.length := by
  induction n generalizing l with
  | zero => rfl
  | succ n ih =>
    cases l with
    | nil => rfl
    | cons r rest =>
      simp only [stepChain_cons]
      split <;> split <;> simp [ih]

/-- The last slot has no successor: it only advances (spec 10 R40). -/
theorem stepChain_single (n : Nat) (r : Slot) : stepChain c (n + 1) [r] = [r.advance] := by
  simp [stepChain_cons, firstLatch]

/-- Each rotor's identity, which Step never changes. -/
def identities (l : List Slot) : List (Bool × Fin 8) := l.map fun r => (r.fitted, r.id)

@[simp] theorem identities_clearFirstLatch (l : List Slot) :
    identities (clearFirstLatch l) = identities l := by
  cases l <;> rfl

/-- Step changes positions and latches alone. -/
@[simp] theorem stepChain_identities (n : Nat) (l : List Slot) :
    identities (stepChain c n l) = identities l := by
  induction n generalizing l with
  | zero => rfl
  | succ n ih =>
    cases l with
    | nil => rfl
    | cons r rest =>
      have h1 : identities (if firstLatch rest && r.lat then
          clearFirstLatch (stepChain c n rest) else rest) = identities rest := by
        split <;> simp [ih]
      simp only [stepChain_cons]
      split
      · show (r.fitted, r.id) :: identities _ = (r.fitted, r.id) :: identities _
        rw [ih, h1]
      · show (r.fitted, r.id) :: identities _ = (r.fitted, r.id) :: identities _
        rw [h1]

/-- What holds of every rotor's identity alone, Step keeps. -/
theorem all_fitted_identities (l : List Slot) :
    l.all (·.fitted) = (identities l).all (·.1) := by
  simp [identities, List.all_map, Function.comp_def]

/-- The inverse lookup finds a letter the wiring maps there, when there is one (spec 10 R25). -/
theorem wireInv_spec (w : Vector Letter 26) (y : Letter) (h : y ∈ w.toList) :
    w[wireInv w y] = y := by
  have hex : ∃ x : Letter, w[x] = y := by
    obtain ⟨i, hi, he⟩ := List.getElem_of_mem h
    exact ⟨⟨i, by simpa using hi⟩, by simpa using he⟩
  obtain ⟨x, hx⟩ := hex
  cases hf : (List.finRange 26).find? (fun x => w[x] == y) with
  | none =>
    have := List.find?_eq_none.1 hf x (List.mem_finRange x)
    simp [hx] at this
  | some z =>
    have e : wireInv w y = z := by rw [wireInv, hf]; rfl
    simp only [e]
    simpa using List.find?_some hf

end Sys2Proof.Machine
end

