-- ==== Sys2Proof/Laws/Wheels.lean ====
section
/-!
SUPPORT. Wheel stepping: what stepping a list of wheels does to each wheel, and that it touches
nothing but the wheels.
-/

namespace Sys2Proof.Machine

variable (s : State)

/-- Stepping one wheel moves that wheel alone. -/
@[simp] theorem stepWheel_wheel (w u : WheelIx) :
    (s.stepWheel w).wheel u =
      if u = w then (s.wheel w).step s.cfg.wheelSizes[w] else s.wheel u := by
  simp only [State.stepWheel, setWheel_wheel]

/-- Stepping wheels leaves the state as it was but for the wheels. -/
theorem stepEach_frame (ws : List WheelIx) :
    s.stepEach ws = { s with wheels := (s.stepEach ws).wheels } := by
  induction ws generalizing s with
  | nil => rfl
  | cons w ws ih =>
    show (s.stepWheel w).stepEach ws = { s with wheels := ((s.stepWheel w).stepEach ws).wheels }
    rw [ih]
    rfl

@[simp] theorem stepEach_cfg (ws : List WheelIx) : (s.stepEach ws).cfg = s.cfg := by
  rw [stepEach_frame]

/-- Stepping distinct wheels steps each of them once and no other. -/
theorem stepEach_wheel (ws : List WheelIx) (h : ws.Nodup) (u : WheelIx) :
    (s.stepEach ws).wheel u =
      if u ∈ ws then (s.wheel u).step s.cfg.wheelSizes[u] else s.wheel u := by
  induction ws generalizing s with
  | nil => simp [State.stepEach]
  | cons w ws ih =>
    obtain ⟨hw, hws⟩ := List.nodup_cons.1 h
    show ((s.stepWheel w).stepEach ws).wheel u = _
    rw [ih _ hws, stepWheel_wheel]
    by_cases hu : u = w
    · subst hu
      simp [hw]
    · simp [hu, State.stepWheel]

theorem steppedWheels_nodup (m0 m1 : Bool) : (steppedWheels m0 m1).Nodup := by
  cases m0 <;> cases m1 <;> decide

/-- StepWheels leaves the state as it was but for the wheels (spec 41 R135). -/
theorem stepWheels_frame : s.stepWheels = { s with wheels := s.stepWheels.wheels } :=
  stepEach_frame s _

@[simp] theorem Wheel.step_pins (size : Nat) (v : Wheel) : (v.step size).pins = v.pins := rfl

@[simp] theorem Wheel.step_pos (size : Nat) (v : Wheel) :
    (v.step size).pos = (v.pos + 1) % size := rfl

end Sys2Proof.Machine
end

