-- ==== Sys2Proof/Machine/Assembler.lean ====
section
/-!
DEFINITION. The assembler's operand forms and how a mnemonic and its operands make a command (spec
30 R84). It starts from operands already told apart; the characters of a source line are log
entry 12.
-/

namespace Sys2Proof.Machine

/-- The operand forms of R84. -/
inductive AsmOperand where
  /-- A decimal or hexadecimal number: the field value. -/
  | num (n : Nat)
  /-- A quoted character: its ASCII byte. -/
  | char (c : Byte)
  /-- The bytes 0x0A, 0x0D, 0x00 and 0x20. -/
  | lf
  | cr
  | nul
  | sp
  /-- A bare capital letter: a letter index in the plugboard commands, a catalog id in E_SETREF. -/
  | letter (x : Letter)
  /-- The log selects 0 and 1. -/
  | pt
  | ct
  /-- `chi1`..`chi5` and `psi1`..`psi5`, by their number less one: wheels 0..4 and 5..9. -/
  | chi (k : Fin 5)
  | psi (k : Fin 5)
  /-- `mu37` and `mu61`: wheels 10 and 11. -/
  | mu37
  | mu61
  /-- `I`..`VIII` by their number less one: a catalog id in E_SETROT. -/
  | roman (k : Fin 8)
  deriving DecidableEq, Repr

/-- The value an operand form gives in a command with opcode `op`, where that command takes the
form. -/
def AsmOperand.value (op : Byte) : AsmOperand → Option Nat
  | .num n => some n
  | .char c => some c.toNat
  | .lf => some 0x0A
  | .cr => some 0x0D
  | .nul => some 0x00
  | .sp => some 0x20
  | .letter x =>
    if op = 0x1A ∨ op = 0x1B ∨ op = 0x1C then some x.val
    else if op = 0x18 ∧ x.val < 3 then some x.val
    else none
  | .pt => if op = 0x27 then some 0 else none
  | .ct => if op = 0x27 then some 1 else none
  | .chi k => some k.val
  | .psi k => some (5 + k.val)
  | .mu37 => some 10
  | .mu61 => some 11
  | .roman k => if op = 0x12 then some k.val else none

/-- An operand as an 8-bit field; a number the field cannot hold assembles to nothing. -/
def asmByte (op : Byte) (o : AsmOperand) : Option Byte :=
  (o.value op).bind fun n => if n < 256 then some (BitVec.ofNat 8 n) else none

/-- An operand as the 16-bit operand `n`. -/
def asmData (op : Byte) (o : AsmOperand) : Option Data :=
  (o.value op).bind fun n => if n < 65536 then some (BitVec.ofNat 16 n) else none

/-- The commands whose operand is the 16-bit `n`: L_LOGRD and L_LOGTRN (R70, R84). -/
def usesN (op : Byte) : Bool := op == 0x27 || op == 0x28

/-- The `b` and `a` fields of a row's operands: `n`, or `a` then `b`; a field that is not used is 0
(R84). -/
def asmLow (r : OpRow) (ops : List AsmOperand) : Option (Byte × Byte) :=
  match usesN r.op, r.usesA, r.usesB, ops with
  | true, _, _, [o] => (asmData r.op o).map fun n => (n.extractLsb' 8 8, n.extractLsb' 0 8)
  | false, true, true, [oa, ob] =>
    (asmByte r.op oa).bind fun a => (asmByte r.op ob).map fun b => (b, a)
  | false, true, false, [oa] => (asmByte r.op oa).map fun a => (0, a)
  | false, false, false, [] => some (0, 0)
  | _, _, _, _ => none

/-- The fields of a row's operands, in the order idx, then a, then b, or idx, then n (R84). -/
def asmFields (r : OpRow) (ops : List AsmOperand) : Option Fields :=
  match r.usesIdx, ops with
  | true, o :: rest =>
    (asmByte r.op o).bind fun idx => (asmLow r rest).map fun (b, a) => ⟨r.op, idx, b, a⟩
  | true, [] => none
  | false, ops => (asmLow r ops).map fun (b, a) => ⟨r.op, 0, b, a⟩

/-- Assemble one line: a mnemonic with exactly the operands its row of R74 uses. -/
def assemble (mnemonic : String) (ops : List AsmOperand) : Option Word :=
  (opcodeTable.find? (fun r => r.mnemonic == mnemonic)).bind fun r =>
    (asmFields r ops).map Fields.toWord

end Sys2Proof.Machine
end

