-- ==== Sys2Proof/Tests/Slice0.lean ====
section
/-!
SUPPORT. The model's own tests: the decoder on words written out from the spec's encodings, the
well-formedness checks on ill-formed terms, vectors of 95_test_vectors.md one command at a time, and
for each obligation with hypotheses a state and operands that meet them. Every expected value is the
spec's.
-/

namespace Sys2Proof.Tests

open Sys2Proof Sys2Proof.Machine

/-! ### Helpers -/

/-- The response word an answer leaves, if it leaves one. -/
def responseOf : Answer → Option Word
  | .next t => t.rsp
  | _ => none

/-- The state an answer leaves; the reset state if it leaves none. -/
def stateOf : Answer → State
  | .next t => t
  | _ => State.reset

/-- The responses the host has taken in a run of commands, in order. -/
def responses (ws : List Word) (s : State) : List Word := (stateOf (runCommands ws s)).taken.reverse

/-- Positions and latches of the chain. -/
def stepping (s : State) : List (Letter × Bool) := s.enigmaSnapshot

/-- Rotors I, II, III at given positions and latches, reflector B, as section 3 of the vectors. -/
def keyed (p0 p1 p2 : Letter) (l0 l1 l2 : Bool) : State :=
  { State.reset with
    slots := [⟨true, 0, p0, l0⟩, ⟨true, 1, p1, l1⟩, ⟨true, 2, p2, l2⟩], refl := ⟨true, 1⟩ }

/-- The same with one character in the logs, the pair A, B on the plugboard, and the host ready. -/
def used : State :=
  { keyed 0 0 0 false false false with
    loglen := 1, logPT := [(0, 0x41)], logCT := [(0, 0x4D)],
    plug := (emptyPlug.set 0 1).set 1 0 }

/-- After reset with logs of one byte each, and one byte in them. -/
def full : State :=
  { State.resetFor { Config.default with logDepth := 1 } with
    loglen := 1, logPT := [(0, 0x41)], logCT := [(0, 0x4D)] }

/-- A response in flight with one edge of latency to go; the host is ready at the two next edges. -/
def inFlight : State :=
  { State.reset with rsp := some 0, wait := 1, pins := [PortIn.ready, PortIn.ready] }

/-! ### Well-formedness: an ill-formed term for each check -/

theorem test_default_config : Config.default.wf = true := default_wf

theorem test_too_many_rotors : { Config.default with nrot := 17 }.wf = false := by decide
theorem test_most_rotors : { Config.default with nrot := 16 }.wf = true := by decide
theorem test_wiring_not_a_bijection :
    { Config.default with rotors := defaultRotors.set 7 ⟨"X", Vector.replicate 26 0, []⟩ }.wf
      = false := by decide
theorem test_reflector_not_an_involution :
    { Config.default with
      reflectors := defaultReflectors.set 2 ⟨"X", (defaultRotors[0]).wiring⟩ }.wf = false := by
  decide
theorem test_wheel_of_size_zero :
    { Config.default with wheelSizes := defaultWheelSizes.set 4 0 }.wf = false := by decide
theorem test_one_symbol_at_two_codes :
    { Config.default with baudot := defaultBaudot.set 1 (some 0x41) }.wf = false := by decide
theorem test_table_of_31_entries :
    { Config.default with baudot := defaultBaudot.set 27 (some 0x31) }.wf = false := by decide
theorem test_log_depth_zero : { Config.default with logDepth := 0 }.wf = false := by decide
theorem test_log_depth_too_large :
    { Config.default with logDepth := 65536 }.wf = false := by decide

theorem test_wellFormed_index :
    (Instr.eSetpos 3 0).wellFormed Config.default = false ∧
      (Instr.eSetpos 2 0).wellFormed Config.default = true ∧
      (Instr.lGetpin 12).wellFormed Config.default = false ∧
      (Instr.lLogrd 2 0).wellFormed Config.default = false ∧
      (Instr.info 2).wellFormed Config.default = false := by decide
theorem test_wellFormed_value :
    (Instr.eSetrot 0 8).wellFormed Config.default = false ∧
      (Instr.eSetpos 0 26).wellFormed Config.default = false ∧
      (Instr.eSetlat 0 2).wellFormed Config.default = false ∧
      (Instr.eSetref 3).wellFormed Config.default = false ∧
      (Instr.eAddpr 3 3).wellFormed Config.default = false ∧
      (Instr.eRempr 26 0).wellFormed Config.default = false ∧
      (Instr.eGetplg 26).wellFormed Config.default = false ∧
      (Instr.lSetpos 0 41).wellFormed Config.default = false ∧
      (Instr.lSetpos 11 60).wellFormed Config.default = true ∧
      (Instr.lSetpin 0 2).wellFormed Config.default = false ∧
      (Instr.bDec 32).wellFormed Config.default = false := by decide

/-! ### Decoding: words written out from R70 and R74 -/

theorem test_decode_control :
    decode 0x00000000 = .ok .nop ∧ decode 0x01000000 = .ok .geterr ∧
      decode 0x02000000 = .ok .clrerr ∧ decode 0x03010000 = .ok (.info 1) := by decide

theorem test_decode_enigma :
    decode 0x10000041 = .ok (.eEnter 0x41) ∧ decode 0x11000041 = .ok (.eXform 0x41) ∧
      decode 0x12020002 = .ok (.eSetrot 2 2) ∧ decode 0x13010000 = .ok (.eGetrot 1) ∧
      decode 0x14010004 = .ok (.eSetpos 1 4) ∧ decode 0x15020000 = .ok (.eGetpos 2) ∧
      decode 0x16010001 = .ok (.eSetlat 1 1) ∧ decode 0x17010000 = .ok (.eGetlat 1) ∧
      decode 0x18000001 = .ok (.eSetref 1) ∧ decode 0x19000000 = .ok .eGetref := by decide

theorem test_decode_plugboard :
    decode 0x1A000201 = .ok (.eAddpr 1 2) ∧ decode 0x1B000302 = .ok (.eRempr 2 3) ∧
      decode 0x1C000001 = .ok (.eGetplg 1) := by decide

theorem test_decode_lorenz :
    decode 0x20000068 = .ok (.lProc 0x68) ∧ decode 0x21000058 = .ok (.lXform 0x58) ∧
      decode 0x220B003C = .ok (.lSetpos 11 60) ∧ decode 0x230A0000 = .ok (.lGetpos 10) ∧
      decode 0x24050001 = .ok (.lSetpin 5 1) ∧ decode 0x25050000 = .ok (.lGetpin 5) ∧
      decode 0x26000000 = .ok .lLoglen ∧ decode 0x27010203 = .ok (.lLogrd 1 0x0203) ∧
      decode 0x28000203 = .ok (.lLogtrn 0x0203) := by decide

theorem test_decode_baudot :
    decode 0x30000041 = .ok (.bEnc 0x41) ∧ decode 0x3100001B = .ok (.bDec 27) := by decide

/-- Vectors DE-2 to DE-12 and DE-14. -/
theorem test_decode_refuses :
    decode 0x00000001 = .error .rsvd ∧ decode 0x04000000 = .error .illegal ∧
      decode 0x0F000000 = .error .illegal ∧ decode 0x1D000000 = .error .illegal ∧
      decode 0x29000000 = .error .illegal ∧ decode 0x32000000 = .error .illegal ∧
      decode 0x40000000 = .error .illegal ∧ decode 0xFF000000 = .error .illegal ∧
      decode 0x13000100 = .error .rsvd ∧ decode 0x10010041 = .error .rsvd ∧
      decode 0x19000001 = .error .rsvd ∧ decode 0x26000001 = .error .rsvd ∧
      decode 0x7F0000FF = .error .illegal := by decide

theorem test_decodeTableWord :
    decodeTableWord 32 0x14010004 = some (.eSetpos 1 4) ∧ decodeTableWord 32 1 = none := by decide

/-- R84 and R86: the assembler's operand forms. -/
theorem test_assemble :
    assemble "E_SETPOS" [.num 1, .num 4] = some 0x14010004 ∧
      assemble "E_ENTER" [.char 0x41] = some 0x10000041 ∧
      assemble "E_ADDPR" [.letter 0, .letter 1] = some 0x1A000100 ∧
      assemble "L_SETPIN" [.mu61, .num 1] = some 0x240B0001 ∧
      assemble "L_LOGRD" [.ct, .num 2] = some 0x27010002 ∧
      assemble "E_SETROT" [.num 2, .roman 2] = some 0x12020002 ∧
      assemble "E_SETREF" [.letter 1] = some 0x18000001 ∧
      assemble "L_PROC" [.lf] = some 0x2000000A ∧
      assemble "E_SETPOS" [.num 1] = none := by decide

/-! ### Control commands (vectors CT-1 to CT-4) -/

theorem test_nop : responseOf (execNop State.reset) = some 0x00000000 := by decide
theorem test_info :
    responseOf (execInfo 0 State.reset) = some 0x00000003 ∧
      responseOf (execInfo 1 State.reset) = some 0x00001000 ∧
      responseOf (execInfo 2 State.reset) = some 0x03000000 := by decide
theorem test_geterr_after_two_errors :
    responses [0x7F000000, 0x1400001A, 0x01000000] State.reset =
      [0x01000000, 0x04000000, 0x00000009] := by decide
theorem test_clrerr_with_a_nonzero_field_clears_nothing :
    responses [0x02000001, 0x01000000] { State.reset with errf := 0b0001001 } =
      [0x02000000, 0x0000000B] := by decide
theorem test_clrerr : (stateOf (execClrerr { State.reset with errf := 0b1111111 })).errf = 0 := by
  decide

/-! ### Enigma stepping and substitution -/

/-- Vector EN-S6: the latched step of slot 1 carries into slot 2, and the latch it sets is cleared
at once. -/
theorem test_step_latched_carry :
    stepping (keyed 0 4 0 true true false).stepRotors = [(1, true), (5, false), (1, false)] := by
  decide
/-- Vector EN-S7: step 1 and step 2 both step slot 1. -/
theorem test_step_twice :
    stepping (keyed 16 0 0 true true false).stepRotors = [(17, true), (2, false), (0, false)] := by
  decide
/-- Vectors EN-S1 and EN-S12: position 25 wraps to 0, and a notch on the last slot does nothing. -/
theorem test_step_wraps :
    stepping (keyed 25 0 21 false false false).stepRotors =
      [(0, false), (0, false), (21, false)] := by decide
/-- The first letter of vector EN-R1, and its stepped position. -/
theorem test_enter_A :
    responseOf (execEEnter 0x41 (keyed 0 0 0 false false false)) = some 0x00000145 ∧
      stepping (stateOf (execEEnter 0x41 (keyed 0 0 0 false false false))) =
        [(1, false), (0, false), (0, false)] := by decide
/-- Vectors EN-E5, EN-E3 and EN-C3. -/
theorem test_enter_folds_passes_and_needs_configuration :
    responseOf (execEEnter 0x61 (keyed 0 0 0 false false false)) = some 0x00000145 ∧
      responseOf (execEEnter 0xFF State.reset) = some 0x000000FF ∧
      responseOf (execEEnter 0x41 State.reset) = some 0x05000000 := by decide
/-- Vector EN-E6: with ENIGMA_FOLD_LOWER false a lowercase byte passes. -/
theorem test_enter_without_fold :
    responseOf (execEEnter 0x61 { keyed 0 0 0 false false false with
      cfg := { Config.default with foldLower := false } }) = some 0x00000061 := by decide
/-- Vector EN-T9 on A and N. -/
theorem test_xform_is_an_involution_on_A :
    responseOf (execEXform 0x41 (keyed 0 0 0 false false false)) = some 0x0000014E ∧
      responseOf (execEXform 0x4E (keyed 0 0 0 false false false)) = some 0x00000141 := by decide
/-- Vector EN-C4: with no rotor, the letter goes through plugboard, reflector and plugboard. -/
theorem test_no_rotors :
    responseOf (execEEnter 0x41 { State.resetFor { Config.default with nrot := 0 } with
      refl := ⟨true, 1⟩ }) = some 0x00000159 := by decide
/-- Vectors EN-T2, EN-T4 and EN-T7. -/
theorem test_rotor_transforms :
    rotorForward Config.default ⟨true, 0, 1, false⟩ 0 = 10 ∧
      rotorInverse Config.default ⟨true, 0, 25, false⟩ 25 = 19 ∧
      rotorForward Config.default ⟨true, 7, 5, false⟩ 5 = 10 := by decide
open Letters in
/-- The first and the last row of R56. -/
theorem test_inverse_wirings :
    (List.finRange 26).map (wireInv (defaultRotors[0]).wiring) =
        [U, W, Y, G, A, D, F, P, V, Z, B, E, C, K, M, T, H, X, S, L, R, I, N, Q, O, J] ∧
      (List.finRange 26).map (wireInv (defaultRotors[7]).wiring) =
        [Q, J, I, N, S, A, Y, D, V, K, B, F, R, U, H, M, C, P, L, E, W, Z, T, G, X, O] := by decide

/-! ### Enigma set-up and plugboard -/

/-- Vector EN-C8: a refit zeroes the slot's position and latch. -/
theorem test_setrot :
    (stateOf (execESetrot 1 4 (keyed 5 7 9 true true false))).slots =
      [⟨true, 0, 5, true⟩, ⟨true, 4, 0, false⟩, ⟨true, 2, 9, false⟩] := by decide
theorem test_setrot_refuses :
    responseOf (execESetrot 0 8 State.reset) = some 0x04000000 ∧
      responseOf (execESetrot 3 0 State.reset) = some 0x03000000 := by decide
theorem test_getrot :
    responseOf (execEGetrot 0 State.reset) = some 0x0000FFFF ∧
      responseOf (execEGetrot 2 (keyed 0 0 0 false false false)) = some 0x00000002 := by decide
/-- Vectors EN-C11, EN-C12 and DE-13. -/
theorem test_setpos :
    stepping (stateOf (execESetpos 0 25 (keyed 3 0 0 true false false))) =
        [(25, true), (0, false), (0, false)] ∧
      responseOf (execESetpos 0 26 State.reset) = some 0x04000000 ∧
      responseOf (execESetpos 9 30 State.reset) = some 0x03000000 := by decide
theorem test_getpos : responseOf (execEGetpos 1 (keyed 0 25 0 false false false)) = some 25 := by
  decide
theorem test_setlat :
    stepping (stateOf (execESetlat 2 1 State.reset)) = [(0, false), (0, false), (0, true)] ∧
      responseOf (execESetlat 0 2 State.reset) = some 0x04000000 := by decide
theorem test_getlat : responseOf (execEGetlat 1 (keyed 0 0 0 false true false)) = some 1 := by decide
theorem test_setref :
    (stateOf (execESetref 2 State.reset)).refl = ⟨true, 2⟩ ∧
      responseOf (execESetref 3 State.reset) = some 0x04000000 := by decide
theorem test_getref :
    responseOf (execEGetref State.reset) = some 0x0000FFFF ∧
      responseOf (execEGetref (keyed 0 0 0 false false false)) = some 0x00000001 := by decide
/-- Vectors EN-P3 to EN-P7. -/
theorem test_addpr :
    responseOf (execEAddpr 0 1 State.reset) = some 1 ∧ responseOf (execEAddpr 1 2 used) = some 0 ∧
      responseOf (execEAddpr 1 0 used) = some 0 ∧
      responseOf (execEAddpr 3 3 State.reset) = some 0x04000000 ∧
      responseOf (execEAddpr 0 26 State.reset) = some 0x04000000 := by decide
theorem test_addpr_pairs_both_letters :
    (stateOf (execEAddpr 0 1 State.reset)).plug = (emptyPlug.set 0 1).set 1 0 := by decide
/-- Vectors EN-P8 to EN-P11. -/
theorem test_rempr :
    (stateOf (execERempr 1 0 used)).plug = emptyPlug ∧ responseOf (execERempr 1 0 used) = some 1 ∧
      responseOf (execERempr 0 2 used) = some 0 ∧ responseOf (execERempr 3 3 used) = some 0 ∧
      responseOf (execERempr 26 0 used) = some 0x04000000 := by decide
theorem test_getplg :
    responseOf (execEGetplg 1 used) = some 0 ∧ responseOf (execEGetplg 25 used) = some 25 ∧
      responseOf (execEGetplg 26 used) = some 0x04000000 := by decide

/-! ### Lorenz -/

/-- Vectors LZ-X1, LZ-X4, LZ-X5, LZ-X9 and LZ-X10. -/
theorem test_lxform :
    responseOf (execLXform 0x41 State.reset) = some 0x0000004D ∧
      responseOf (execLXform 0x20 State.reset) = some 0x0000003F ∧
      responseOf (execLXform 0x58 State.reset) = some 0x0000000A ∧
      responseOf (execLXform 0x0A State.reset) = some 0x0000010A ∧
      responseOf (execLXform 0x7A State.reset) = some 0x00000043 ∧
      responseOf (execLXform 0x31 State.reset) = some 0x00000200 := by decide
/-- Program P3, command 4: one chi pin, one psi pin and the coarse pin set. -/
def pinned : State :=
  stateOf (runCommands [0x24000001, 0x240B0001, 0x24050001] State.reset)
theorem test_lproc :
    responseOf (execLProc 0x68 pinned) = some 0x0000004A ∧
      (stateOf (execLProc 0x68 pinned)).wheelSnapshot = [1, 1, 1, 1, 1, 0, 0, 0, 0, 0, 1, 1] ∧
      (stateOf (execLProc 0x68 pinned)).logPT = [(0, 0x48)] ∧
      (stateOf (execLProc 0x68 pinned)).logCT = [(0, 0x4A)] ∧
      (stateOf (execLProc 0x68 pinned)).loglen = 1 := by decide
/-- Vectors LZ-P2, LZ-P3 and LZ-P5. -/
theorem test_lproc_newline_drop_full :
    responseOf (execLProc 0x0A State.reset) = some 0x0000010A ∧
      responseOf (execLProc 0x3F full) = some 0x00000200 ∧
      responseOf (execLProc 0x41 full) = some 0x06000000 := by decide
/-- Vectors LZ-W1 to LZ-W4. -/
theorem test_lsetpos :
    (stateOf (execLSetpos 0 40 State.reset)).wheelSnapshot = [40, 0, 0, 0, 0, 0, 0, 0, 0, 0, 0, 0] ∧
      responseOf (execLSetpos 0 41 State.reset) = some 0x04000000 ∧
      responseOf (execLSetpos 11 60 State.reset) = some 0x00000000 ∧
      responseOf (execLSetpos 11 61 State.reset) = some 0x04000000 ∧
      responseOf (execLSetpos 12 0 State.reset) = some 0x03000000 := by decide
theorem test_lgetpos :
    responses [0x22000028, 0x23000000] State.reset = [0, 0x28] := by decide
theorem test_pin_belongs_to_its_position :
    responses [0x22000028, 0x24000001, 0x25000000, 0x22000000, 0x25000000] State.reset =
      [0, 0, 1, 0, 0] := by decide
theorem test_lsetpin_refuses : responseOf (execLSetpin 0 2 State.reset) = some 0x04000000 := by decide
theorem test_loglen : responseOf (execLLoglen used) = some 1 := by decide
theorem test_logrd :
    responseOf (execLLogrd 0 0 used) = some 0x41 ∧ responseOf (execLLogrd 1 0 used) = some 0x4D ∧
      responseOf (execLLogrd 1 1 used) = some 0x07000000 ∧
      responseOf (execLLogrd 2 0 used) = some 0x03000000 := by decide
theorem test_logtrn :
    (stateOf (execLLogtrn 0 used)).loglen = 0 ∧ responseOf (execLLogtrn 1 used) = some 0 ∧
      responseOf (execLLogtrn 2 used) = some 0x07000000 := by decide

/-! ### Baudot (vectors BD-1 to BD-6) -/

theorem test_benc :
    responseOf (execBEnc 0x41 State.reset) = some 3 ∧
      responseOf (execBEnc 0x5A State.reset) = some 0x11 ∧
      responseOf (execBEnc 0x0A State.reset) = some 2 ∧
      responseOf (execBEnc 0x61 State.reset) = some 0xFFFF := by decide
theorem test_bdec :
    responseOf (execBDec 0 State.reset) = some 0 ∧
      responseOf (execBDec 30 State.reset) = some 0x56 ∧
      responseOf (execBDec 31 State.reset) = some 0x3F ∧
      responseOf (execBDec 32 State.reset) = some 0x04000000 := by decide

/-! ### The port -/

theorem test_first_command_after_reset :
    responseOf (step (State.reset.withFetchWord 32 0x20000041)) = some 0x0000004D := by decide
theorem test_command_waits_while_one_is_in_flight :
    (stateOf (step { inFlight with pins := [PortIn.offer 0x02000000], errf := 1 })).errf = 1 := by
  decide
theorem test_pseudo_erestore :
    (pseudoErestore [(17, true)]).map encode = [0x14000011, 0x16000001] := by decide
theorem test_pseudo_setkey_and_loadpins :
    (pseudoSetkey [0, 1] [16, 4]).map encode =
        [0x12000000, 0x12010001, 0x14000010, 0x14010004] ∧
      (pseudoLoadpins 11 [true, false]).map encode =
        [0x220B0000, 0x240B0001, 0x220B0001, 0x240B0000, 0x220B0000] := by decide

/-! ### Witnesses: a state and operands that meet each obligation's hypotheses -/

theorem witness_inv : used.Inv where
  cfg_wellFormed := default_wellFormed
  chain_length := rfl
  plug_involutive := by decide
  pins_length := by decide
  wheel_in_range := by decide
  loglen_le := by decide
  logs_canonical := by intro l; cases l <;> rfl
  logs_in_range := by
    intro l n h
    have hn : n = 0 := by
      by_contra hne
      exact h (by cases l <;> simp [State.log, used, logLookup, Ne.symm hne])
    subst hn
    decide
  logs_written := by
    intro l n h
    have hn : n = 0 := by
      have : used.loglen.toNat = 1 := rfl
      omega
    subst hn
    cases l <;> decide
  response_legal := by intro r h; exact absurd h (by simp [used, keyed, State.reset])
  idle_not_waiting := fun _ => rfl

/-- EncodeOfDecode, DecodeFollowsMatchAndMask, DecodeIsTotal, UnassignedOpcodes: a command word, a word
with a nonzero unused field and a word with an unassigned opcode. -/
theorem witness_words :
    decode 0x14010004 = .ok (.eSetpos 1 4) ∧
      (∃ r ∈ opcodeTable, r.op = (Fields.ofWord 0x13000100).op ∧
        (0x13000100 : Word) &&& r.mask ≠ r.pattern) ∧
      ∀ r ∈ opcodeTable, r.op ≠ (Fields.ofWord 0x7F000000).op := by decide

/-- EveryCommandAnswers, ErrorsAreAllOrNothing: a command that answers an error. -/
theorem witness_error :
    responseOf (runWord 0x1400001A State.reset) = some 0x04000000 ∧
      responseStatus 0x04000000 ≠ 0 := by decide

/-- IndexOutOfRange and ValueOutOfRange: each clause at the boundary of a range. -/
theorem witness_legality :
    (Instr.eGetpos 3).indexLegal State.reset.cfg = false ∧
      (Instr.eGetpos 2).indexLegal State.reset.cfg = true ∧
      (Instr.eSetpos 2 26).valueLegal State.reset.cfg = false ∧
      (Instr.eSetpos 2 25).valueLegal State.reset.cfg = true ∧
      (Instr.lSetpos 11 61).indexLegal State.reset.cfg = true ∧
      (Instr.lSetpos 11 61).valueLegal State.reset.cfg = false := by decide

/-- ControlCommands: words of the three opcodes with a nonzero bit in 23:0. -/
theorem witness_control_reserved :
    (Fields.ofWord 0x02800000).op.toNat ≤ 2 ∧ (0x02800000 : Word).extractLsb' 0 24 ≠ 0#24 ∧
      1 < (2 : Byte).toNat := by decide

/-- EnterSteps, XformSubstitutes: the boundary bytes of the letters, ready and not ready. -/
theorem witness_letters :
    enigmaLetter Config.default 0x40 = none ∧ enigmaLetter Config.default 0x41 = some 0 ∧
      enigmaLetter Config.default 0x5A = some 25 ∧ enigmaLetter Config.default 0x5B = none ∧
      enigmaLetter Config.default 0x61 = some 0 ∧ enigmaLetter Config.default 0x7A = some 25 ∧
      State.reset.refl.fitted = false ∧ (∃ r ∈ State.reset.slots, r.fitted = false) ∧
      used.refl.fitted = true ∧ ∀ r ∈ used.slots, r.fitted = true := by decide

/-- SlotAdvances, FirstLatch: a chain of three, and one whose last latch is clear. -/
theorem witness_chain :
    2 < used.slots.length ∧ ((keyed 0 0 0 true false false).slot 0).lat = true ∧
      (⟨true, 2, 21, false⟩ : Slot).lat = false := by decide

/-- FirstLatch: slot 0 at its notch, with a successor. -/
theorem witness_first_notch :
    (keyed 16 0 0 false false false).slots =
        [⟨true, 0, 16, false⟩, ⟨true, 1, 0, false⟩, ⟨true, 2, 0, false⟩] ∧
      (16 : Letter) ∈ (Config.default.rotors[(0 : Fin 8)]).notches := by decide

/-- FirstLatch: a command that answers, in a state whose first latch is set. -/
theorem witness_first_latch :
    stepping (stateOf (exec (.eEnter 0x41) (keyed 0 0 0 true false false))) =
      [(1, true), (0, false), (0, false)] := by decide

/-- DoubleStepAnomaly: the start of vector EN-D1. -/
theorem witness_double_step :
    (16 : Letter) ∈ (Config.default.rotors[(0 : Fin 8)]).notches ∧
      (4 : Letter) ∈ (Config.default.rotors[(1 : Fin 8)]).notches ∧
      (16 + 1 : Letter) ∉ (Config.default.rotors[(0 : Fin 8)]).notches ∧
      (4 + 1 : Letter) ∉ (Config.default.rotors[(1 : Fin 8)]).notches := by decide

/-- SlotAdvances: the calls of the second letter of vector EN-D1, where slot 1 is stepped through
slot 0's latch, and of a letter at two notches. -/
theorem witness_step_calls :
    (stepAt Config.default 3 0 (keyed 17 5 0 true true false).slots).1 = [0, 1] ∧
      (stepAt Config.default 3 0 (keyed 16 4 0 false false false).slots).1 = [0, 1, 2] := by decide

/-- RotorTransformsFollow: the default wirings. -/
theorem witness_bijections : ∀ k : Fin 8, Config.default.rotors[k].IsBijection :=
  default_wellFormed.rotors_bijective

/-- SubstitutionPipeline, NoLetterEnciphersToItself, EnciphermentIsReciprocal, EnigmaUndo: with
`witness_inv`. -/
theorem witness_ready :
    used.enigmaReady = true ∧ used.taken = [] ∧ ∀ x : Letter, used.reflect x ≠ x := by decide

/-- SetrotFits, SetposAndSetlat, SlotReads: the last slot and the first beyond it, and the last legal
and first illegal values. -/
theorem witness_slot_operands :
    (2 : Byte).toNat < used.cfg.nrot ∧ used.cfg.nrot ≤ (3 : Byte).toNat ∧
      used.slots[(2 : Byte).toNat]? = some ⟨true, 2, 0, false⟩ ∧
      (7 : Byte).toNat = (7 : Fin 8).val ∧ 7 < (8 : Byte).toNat ∧
      (25 : Byte).toNat = (25 : Letter).val ∧ 25 < (26 : Byte).toNat ∧
      (1 : Byte).toNat = true.toNat ∧ 1 < (2 : Byte).toNat := by decide

/-- ReflectorIsSelectedAndRead: both values of the configured bit, and the ids at the boundary. -/
theorem witness_reflector :
    State.reset.refl.fitted = false ∧ used.refl.fitted = true ∧
      (2 : Byte).toNat = (2 : Fin 3).val ∧ 2 < (3 : Byte).toNat := by decide

/-- AddprAdds, RemprRemoves, GetplgReads: a paired and two unpaired letters. -/
theorem witness_pairs :
    used.plug[(0 : Letter)] = 1 ∧ used.plug[(0 : Letter)] ≠ 0 ∧ used.plug[(2 : Letter)] = 2 ∧
      used.plug[(25 : Letter)] = 25 ∧ (2 : Letter) ≠ 25 ∧
      (∀ z : Letter, used.plug[used.plug[z]] = z) := by decide

/-- LorenzBytes, Lproc, Lxform, OnlyLproc, WheelsMove: a byte of each class, with and without room. -/
theorem witness_lorenz_classes :
    lorenzClass used.cfg 0x0A = .newline ∧ lorenzClass used.cfg 0x3F = .other ∧
      lorenzClass used.cfg 0x61 = .symbol 0x41 3 ∧ used.loglen.toNat < used.cfg.logDepth ∧
      full.loglen.toNat = full.cfg.logDepth ∧ lorenzClass full.cfg 0x41 ≠ .other ∧
      Config.default.baudot[(3 : Code).toFin] = some 0x41 := by decide

theorem witness_no_code_for_sentinel :
    ∀ k : Code, Config.default.baudot[k.toFin] ≠ some 0x3F := by decide

/-- WheelsMove: an L_PROC that moves a wheel. -/
theorem witness_wheels_move :
    (stateOf (exec (.lProc 0x41) State.reset)).wheelSnapshot ≠ State.reset.wheelSnapshot := by decide

/-- After reset with the five chi pins at position 0 set (vector LZ-X12). -/
def chiSet : State :=
  stateOf (runCommands [0x24000001, 0x24010001, 0x24020001, 0x24030001, 0x24040001] State.reset)

/-- CombinerXorsTheKey: chi pins equal to the psi pins, and their complement. -/
theorem witness_keys :
    (∀ k : Fin 5, State.reset.currentPin ⟨k.val, by omega⟩ =
        State.reset.currentPin ⟨5 + k.val, by omega⟩) ∧
      ∀ k : Fin 5, chiSet.currentPin ⟨k.val, by omega⟩ =
        !chiSet.currentPin ⟨5 + k.val, by omega⟩ := by decide

/-- LxformTwice: the three cases of the output code from reset (vectors LZ-X1, LZ-X4, LZ-X5). -/
theorem witness_lxform_twice :
    State.reset.cfg.baudot = defaultBaudot ∧
      lorenzClass State.reset.cfg 0x20 = .symbol 0x20 4 ∧ State.reset.combine 4 = 27 ∧
      lorenzClass State.reset.cfg 0x58 = .symbol 0x58 29 ∧ State.reset.combine 29 = 2 ∧
      lorenzClass State.reset.cfg 0x41 = .symbol 0x41 3 ∧ State.reset.combine 3 = 28 := by decide

/-- ZeroCoarsePins: two symbols from `used`, whose pins are all 0; with `witness_inv`. -/
theorem witness_zero_coarse_pins :
    used.loglen.toNat + ([0x41, 0x42] : List Byte).length ≤ used.cfg.logDepth ∧
      lorenzClass used.cfg 0x41 = .symbol 0x41 3 ∧ lorenzClass used.cfg 0x42 = .symbol 0x42 25 ∧
      ∀ n < ([0x41, 0x42] : List Byte).length,
        (used.wheel 11).pins[((used.wheel 11).pos + n) % used.cfg.wheelSizes[(11 : WheelIx)]]? =
          some false := by decide

/-- WheelWrites, WheelReads: the last wheel and the first index beyond it, with the boundary values. -/
theorem witness_wheel_operands :
    (11 : Byte).toNat = (11 : WheelIx).val ∧ 11 < (12 : Byte).toNat ∧
      (60 : Byte).toNat < used.cfg.wheelSizes[(11 : WheelIx)] ∧
      used.cfg.wheelSizes[(11 : WheelIx)] ≤ (61 : Byte).toNat ∧
      used.wheels[(11 : WheelIx)].pins[used.wheels[(11 : WheelIx)].pos]? = some false := by decide

/-- LogLength, Logrd: an index below, at and above the length. -/
theorem witness_log_operands :
    (0 : Data).toNat < used.loglen.toNat ∧ (0 : Data).toNat < used.cfg.logDepth ∧
      used.loglen.toNat ≤ (1 : Data).toNat ∧ used.loglen.toNat < (2 : Data).toNat ∧
      logLookup (used.log .ct) (0 : Data).toNat = some 0x4D := by decide

/-- BaudotLookups: with `default_wellFormed`. -/
theorem witness_baudot :
    used.cfg.baudot[(30 : Code).toFin] = some 0x56 ∧ (31 : Byte).toNat = (31 : Code).toNat ∧
      31 < (32 : Byte).toNat ∧
      responseOf (exec (.bEnc 0x56) used) = some (okResponse ((30 : Code).setWidth 16)) := by decide

/-- ReadCommands, FlagsAreWritten, UnitsDoNotInterfere: commands of the classes that answer. -/
theorem witness_classes :
    (Instr.lLogrd 0 0).isRead = true ∧ (Instr.lLogrd 0 0).isLorenz = true ∧
      responseOf (exec (.lLogrd 0 0) used) = some 0x41 ∧ (Instr.eSetlat 0 1).isEnigma = true ∧
      (stateOf (exec (.eSetlat 0 1) used)).slots.map Slot.lat ≠ used.slots.map Slot.lat ∧
      (stateOf (exec (.eSetrot 0 1) State.reset)).slots.map Slot.fitted ≠
        State.reset.slots.map Slot.fitted ∧
      (stateOf (exec (.eSetref 0) State.reset)).refl.fitted ≠ State.reset.refl.fitted ∧
      (stateOf (exec (.eSetref 3) State.reset)).errf ≠ State.reset.errf := by decide

/-- PlugboardStays: a command that changes the plugboard. -/
theorem witness_plug_changes : (stateOf (exec (.eAddpr 2 3) used)).plug ≠ used.plug := by decide

/-- LorenzUndo: with `witness_inv`. -/
theorem witness_wheel_sizes : ∀ w : WheelIx, used.cfg.wheelSizes[w] ≤ 256 := by decide

/-- StepRuns, PortHolds, ResponseIsTaken, PortRuns, ResetGives: the edges of the port. -/
theorem witness_edges :
    State.reset.cfg.wf = true ∧ State.reset.rsp = none ∧
      (State.reset.withFetchWord 32 0x14010004).pins = [PortIn.offer 0x14010004] ∧
      (PortIn.offer 0x14010004).rst = false ∧ (PortIn.offer 0x14010004).cmdValid = true ∧
      decode (PortIn.offer 0x14010004).cmd = .ok (.eSetpos 1 4) ∧
      decode (PortIn.offer 1).cmd = .error .rsvd ∧ PortIn.idle.cmdValid = false ∧
      inFlight.rsp = some 0 ∧ inFlight.wait = 0 + 1 ∧
      inFlight.pins = [PortIn.ready] ++ PortIn.ready :: [] ∧
      [PortIn.ready].length = inFlight.wait ∧ PortIn.ready.rspReady = true ∧
      (⟨true, false, 0, false⟩ : PortIn).rst = true := by decide

/-- PortHolds: the response's latency has passed, with the host ready and not ready. -/
theorem witness_response_offered :
    { inFlight with wait := 0 }.rsp = some 0 ∧ { inFlight with wait := 0 }.rspValid = true ∧
      PortIn.ready.rspReady = true ∧ PortIn.idle.rspReady = false := by decide

/-- PortRuns: a command with a latency of two edges, and the answer of the command function. -/
theorem witness_port_run :
    { State.reset with latencies := [1] }.rsp = none ∧
      { State.reset with latencies := [1] }.latencies.headD 0 = 1 ∧
      responses [0x03000000] State.reset = [3] := by decide

/-- OnlyIllFormedConfigurationsAreRefused: one configuration of each kind. -/
theorem witness_configurations :
    ¬ ({ Config.default with logDepth := 0 } : Config).WellFormed ∧ Config.default.WellFormed :=
  ⟨fun h => absurd h.logDepth_pos (by decide), default_wellFormed⟩

end Sys2Proof.Tests
end

section
/-!
What a command can do, said once: the writes each command makes before its response, the three ways
it can end, and that `exec` ends in one of them. What no command does follows by cases on these.
-/

namespace Sys2Proof.Machine

/-! ### What a command can do -/

/-- `CommandWrites s i u`: `u` is `s` with the writes that `i` makes before it responds. A command
that may write has a case of its own, with the operands it read and the checks they passed. -/
inductive CommandWrites (s : State) : Instr → State → Prop
  | nothing {i : Instr} : CommandWrites s i s
  | errorsCleared : CommandWrites s .clrerr s.clearErrors
  | rotorsStepped {a : Byte} {x : Letter} (hx : enigmaLetter s.cfg a = some x)
      (hready : s.enigmaReady = true) : CommandWrites s (.eEnter a) s.stepRotors
  | rotorFitted {idx a : Byte} {n : Nat} {k : Fin 8} (hn : slotIndex s.cfg idx = some n)
      (hk : rotorId a = some k) :
      CommandWrites s (.eSetrot idx a) (s.setSlot n ⟨true, k, 0, false⟩)
  | rotorPositioned {idx a : Byte} {n : Nat} {p : Letter} (hn : slotIndex s.cfg idx = some n)
      (hp : letterOperand a = some p) :
      CommandWrites s (.eSetpos idx a) (s.setSlot n { s.slot n with pos := p })
  | latchSet {idx a : Byte} {n : Nat} {v : Bool} (hn : slotIndex s.cfg idx = some n)
      (hv : bitOperand a = some v) :
      CommandWrites s (.eSetlat idx a) (s.setSlot n { s.slot n with lat := v })
  | reflectorSelected {a : Byte} {k : Fin 3} (hk : reflectorId a = some k) :
      CommandWrites s (.eSetref a) (s.setRefl ⟨true, k⟩)
  | pairAdded {a b : Byte} {x y : Letter} (hx : letterOperand a = some x)
      (hy : letterOperand b = some y) (hne : x ≠ y) (hfx : s.partner x = x)
      (hfy : s.partner y = y) :
      CommandWrites s (.eAddpr a b) ((s.setPartner x y).setPartner y x)
  | pairRemoved {a b : Byte} {x y : Letter} (hx : letterOperand a = some x)
      (hy : letterOperand b = some y) (hne : x ≠ y) (hxy : s.partner x = y) :
      CommandWrites s (.eRempr a b) ((s.setPartner x x).setPartner y y)
  | newlineLogged {a : Byte} (ha : lorenzClass s.cfg a = .newline)
      (hroom : s.loglen.toNat < s.cfg.logDepth) :
      CommandWrites s (.lProc a) (s.appended newlineByte newlineByte)
  | symbolLogged {a c : Byte} {k : Code} (ha : lorenzClass s.cfg a = .symbol c k)
      (hroom : s.loglen.toNat < s.cfg.logDepth) :
      CommandWrites s (.lProc a) (s.appended c (s.encryptChar k)).stepWheels
  | wheelPositioned {idx a : Byte} {w : WheelIx} {p : Nat} (hw : wheelIndex idx = some w)
      (hp : wheelPosition s.cfg w a = some p) :
      CommandWrites s (.lSetpos idx a) (s.setWheel w { s.wheel w with pos := p })
  | pinSet {idx a : Byte} {w : WheelIx} {v : Bool} (hw : wheelIndex idx = some w)
      (hv : bitOperand a = some v) :
      CommandWrites s (.lSetpin idx a) (s.setWheel w ((s.wheel w).setPin v))
  | logTruncated {n : Data} (hn : n.toNat ≤ s.loglen.toNat) :
      CommandWrites s (.lLogtrn n) (s.setLoglen n)

/-- The three ways a command can end (spec 60 R173, R177): an error status, which writes nothing
else; its writes and a response; or, with the log length above its bound only, the fault. -/
inductive CommandEnds (s : State) (i : Instr) : Answer → Prop
  | raises (e : ErrorStatus) : CommandEnds s i (.next (s.raise e))
  | responds {u : State} {d : Data} (hu : CommandWrites s i u) :
      CommandEnds s i (.next (u.respond d))
  | faults (h : s.cfg.logDepth < s.loglen.toNat) : CommandEnds s i (.fault .noLogEntry)

/-- An append of L_PROC ends in one of the three ways when its writes are those of the command. -/
theorem logged_ends {s : State} {i : Instr} {p c : Byte} {after : State → State} {d : Data}
    (hu : s.loglen.toNat < s.cfg.logDepth → CommandWrites s i (after (s.appended p c))) :
    CommandEnds s i (s.logged p c after d) := by
  rcases logged_cases s p c after d with ⟨-, he⟩ | ⟨hroom, he⟩ | ⟨hover, he⟩ <;> rw [he]
  · exact .raises _
  · exact .responds (hu hroom)
  · exact .faults hover

/-- L_PROC ends in one of the three ways (spec 41 R141). -/
theorem execLProc_ends (a : Byte) (s : State) : CommandEnds s (.lProc a) (execLProc a s) := by
  unfold execLProc
  split
  · next ha => exact logged_ends fun hroom => .newlineLogged ha hroom
  · exact .responds .nothing
  · next ha => exact logged_ends fun hroom => .symbolLogged ha hroom

/-- L_LOGRD ends in one of the three ways (spec 41 R151). -/
theorem execLLogrd_ends (idx : Byte) (n : Data) (s : State) :
    CommandEnds s (.lLogrd idx n) (execLLogrd idx n s) := by
  unfold execLLogrd
  split
  · exact .raises _
  · next l hl =>
    by_cases hlen : s.loglen.toNat ≤ n.toNat
    · rw [if_pos hlen]
      exact .raises _
    · rw [if_neg hlen]
      by_cases hn : n.toNat < s.cfg.logDepth
      · rw [memRead_ok s l n.toNat hn]
        exact .responds .nothing
      · simp only [State.memRead, if_neg hn]
        exact .faults (by omega)

/-- Every command ends in one of the three ways. -/
theorem exec_ends (i : Instr) (s : State) : CommandEnds s i (exec i s) := by
  cases i with
  | nop => exact .responds .nothing
  | geterr => exact .responds .nothing
  | clrerr => exact .responds .errorsCleared
  | info idx =>
    simp only [exec, execInfo]
    split
    · exact .responds .nothing
    · exact .responds .nothing
    · exact .raises _
  | eEnter a =>
    simp only [exec, execEEnter]
    split
    · exact .responds .nothing
    · next x hx =>
      split
      · next hready => exact .responds (.rotorsStepped hx hready)
      · exact .raises _
  | eXform a =>
    simp only [exec, execEXform]
    split
    · exact .responds .nothing
    · split
      · exact .responds .nothing
      · exact .raises _
  | eSetrot idx a =>
    simp only [exec, execESetrot]
    split
    · exact .raises _
    · exact .raises _
    · next hn hk => exact .responds (.rotorFitted hn hk)
  | eGetrot idx =>
    simp only [exec, execEGetrot]
    split
    · exact .raises _
    · exact .responds .nothing
  | eSetpos idx a =>
    simp only [exec, execESetpos]
    split
    · exact .raises _
    · exact .raises _
    · next hn hp => exact .responds (.rotorPositioned hn hp)
  | eGetpos idx =>
    simp only [exec, execEGetpos]
    split
    · exact .raises _
    · exact .responds .nothing
  | eSetlat idx a =>
    simp only [exec, execESetlat]
    split
    · exact .raises _
    · exact .raises _
    · next hn hv => exact .responds (.latchSet hn hv)
  | eGetlat idx =>
    simp only [exec, execEGetlat]
    split
    · exact .raises _
    · exact .responds .nothing
  | eSetref a =>
    simp only [exec, execESetref]
    split
    · exact .raises _
    · next hk => exact .responds (.reflectorSelected hk)
  | eGetref => exact .responds .nothing
  | eAddpr a b =>
    simp only [exec, execEAddpr]
    split
    · next x y hx hy =>
      split_ifs with hxy hpaired
      · exact .raises _
      · exact .responds .nothing
      · obtain ⟨hfx, hfy⟩ := not_or.1 hpaired
        exact .responds (.pairAdded hx hy hxy (not_not.1 hfx) (not_not.1 hfy))
    · exact .raises _
  | eRempr a b =>
    simp only [exec, execERempr]
    split
    · next x y hx hy =>
      split_ifs with hpair
      · exact .responds (.pairRemoved hx hy hpair.1 hpair.2)
      · exact .responds .nothing
    · exact .raises _
  | eGetplg a =>
    simp only [exec, execEGetplg]
    split
    · exact .raises _
    · exact .responds .nothing
  | lProc a => exact execLProc_ends a s
  | lXform a =>
    simp only [exec, execLXform]
    split <;> exact .responds .nothing
  | lSetpos idx a =>
    simp only [exec, execLSetpos]
    split
    · exact .raises _
    · next hw =>
      split
      · exact .raises _
      · next hp => exact .responds (.wheelPositioned hw hp)
  | lGetpos idx =>
    simp only [exec, execLGetpos]
    split
    · exact .raises _
    · exact .responds .nothing
  | lSetpin idx a =>
    simp only [exec, execLSetpin]
    split
    · exact .raises _
    · exact .raises _
    · next hw hv => exact .responds (.pinSet hw hv)
  | lGetpin idx =>
    simp only [exec, execLGetpin]
    split
    · exact .raises _
    · exact .responds .nothing
  | lLoglen => exact .responds .nothing
  | lLogrd idx n => exact execLLogrd_ends idx n s
  | lLogtrn n =>
    simp only [exec, execLLogtrn]
    split
    · exact .raises _
    · next hn => exact .responds (.logTruncated (not_lt.1 hn))
  | bEnc a =>
    simp only [exec, execBEnc]
    split <;> exact .responds .nothing
  | bDec a =>
    simp only [exec, execBDec]
    split
    · exact .raises _
    · exact .responds .nothing

/-- Everything a command that ends in a next state has done: raised an error, or made its writes and
responded. -/
theorem exec_next_cases {i : Instr} {s t : State} (h : exec i s = .next t) :
    (∃ e, t = s.raise e) ∨ ∃ u d, CommandWrites s i u ∧ t = u.respond d := by
  have hends := exec_ends i s
  rw [h] at hends
  cases hends with
  | raises e => exact .inl ⟨e, rfl⟩
  | responds hu => exact .inr ⟨_, _, hu, rfl⟩

/-- No command is refused (spec 60 R177). -/
theorem exec_ne_refused (i : Instr) (s : State) (r : Refusal) : exec i s ≠ .refused r := by
  intro h
  have hends := exec_ends i s
  rw [h] at hends
  cases hends

/-! ### Refusals -/

/-- No command word is refused: one that does not decode raises its error (spec 60 R171). -/
theorem runWord_ne_refused (w : Word) (s : State) (r : Refusal) : runWord w s ≠ .refused r := by
  unfold runWord
  split
  · exact nofun
  · exact exec_ne_refused _ s r

/-- No edge is refused, whatever the inputs. -/
theorem edge_ne_refused (s : State) (p : PortIn) (r : Refusal) : s.edge p ≠ .refused r := by
  rcases edge_cases s p with ⟨-, h⟩ | ⟨-, -, -, h⟩ | ⟨-, -, -, h⟩ | ⟨_, -, -, -, -, h⟩ |
    ⟨_, -, -, -, -, h⟩ | ⟨_, -, -, -, h⟩ <;> rw [h]
  · exact nofun
  · exact runWord_ne_refused p.cmd s.startLatency r
  · exact nofun
  · exact nofun
  · exact nofun
  · exact nofun

/-- The step of a state with an ill-formed configuration is refused (spec 00 R10). -/
theorem step_of_not_wellFormed (s : State) (h : ¬ s.cfg.WellFormed) :
    step s = .refused .illFormedConfig :=
  if_neg fun hwf => h ((wf_iff _).1 hwf)

/-- Settles O56: the check of `step` is R10's, and an edge of a well-formed configuration is no
refusal because none of its commands is. -/
theorem onlyIllFormedConfigurationsAreRefused :
    Obligations.OnlyIllFormedConfigurationsAreRefused := by
  unfold Obligations.OnlyIllFormedConfigurationsAreRefused
  intro s
  refine ⟨step_of_not_wellFormed s, fun h r => ?_⟩
  rw [step_eq_edge s ((wf_iff _).2 h)]
  exact edge_ne_refused _ _ r

/-! ### L_PROC, one equation per outcome -/

/-- A logged command with room. -/
theorem logged_of_room (s : State) (p c : Byte) (after : State → State) (d : Data)
    (hroom : s.loglen.toNat < s.cfg.logDepth) :
    s.logged p c after d = .next ((after (s.appended p c)).respond d) := by
  simp [State.logged, State.logFull, Nat.ne_of_lt hroom, appendLogs_ok s p c hroom]

/-- A logged command with full logs. -/
theorem logged_of_full (s : State) (p c : Byte) (after : State → State) (d : Data)
    (hfull : s.loglen.toNat = s.cfg.logDepth) :
    s.logged p c after d = .next (s.raise .logfull) := by
  simp [State.logged, State.logFull, hfull]

section
variable {s : State} {a c : Byte} {k : Code}

theorem exec_lProc_of_other (ha : lorenzClass s.cfg a = .other) :
    exec (.lProc a) s = .next (s.respond (lorenzData .dropped 0)) := by
  simp only [exec, execLProc, ha]

theorem exec_lProc_of_newline (ha : lorenzClass s.cfg a = .newline)
    (hroom : s.loglen.toNat < s.cfg.logDepth) :
    exec (.lProc a) s =
      .next ((s.appended newlineByte newlineByte).respond (lorenzData .newline newlineByte)) := by
  simp only [exec, execLProc, ha, logged_of_room s _ _ _ _ hroom]

theorem exec_lProc_of_symbol (ha : lorenzClass s.cfg a = .symbol c k)
    (hroom : s.loglen.toNat < s.cfg.logDepth) :
    exec (.lProc a) s = .next ((s.appended c (s.encryptChar k)).stepWheels.respond
      (lorenzData .enciphered (s.encryptChar k))) := by
  simp only [exec, execLProc, ha, logged_of_room s _ _ _ _ hroom]

theorem exec_lProc_of_full (ha : lorenzClass s.cfg a ≠ .other)
    (hfull : s.loglen.toNat = s.cfg.logDepth) :
    exec (.lProc a) s = .next (s.raise .logfull) := by
  simp only [exec, execLProc]
  split
  · exact logged_of_full s _ _ _ _ hfull
  · next hother => exact absurd hother ha
  · exact logged_of_full s _ _ _ _ hfull

end

/-! ### What the log cells read as -/

/-- After an append the cell at the old length reads as the byte put into that log, and every other
cell reads as before. -/
def AppendedAt (s t : State) (p c : Byte) : Prop :=
  t.logByte .pt s.loglen.toNat = p ∧ t.logByte .ct s.loglen.toNat = c ∧
    ∀ (l : LogSel) (n : Nat), n ≠ s.loglen.toNat → t.logByte l n = s.logByte l n

theorem appended_appendedAt (s : State) (p c : Byte) : AppendedAt s (s.appended p c) p c := by
  refine ⟨?_, ?_, fun l n hn => ?_⟩
  · simp [State.logByte, State.log, State.appended]
  · simp [State.logByte, State.log, State.appended]
  · cases l <;>
      simp [State.logByte, State.log, State.appended, logLookup_insert_other _ _ _ _ hn]

@[simp] theorem stepWheels_logByte (s : State) (l : LogSel) (n : Nat) :
    s.stepWheels.logByte l n = s.logByte l n := by
  rw [stepWheels_frame]
  cases l <;> rfl

/-- The writes of a command other than L_PROC leave what every cell reads as. -/
theorem CommandWrites.logByte_eq {i : Instr} {s u : State} (hu : CommandWrites s i u)
    (hi : ∀ a, i ≠ .lProc a) (l : LogSel) (n : Nat) : u.logByte l n = s.logByte l n := by
  cases hu with
  | newlineLogged => exact absurd rfl (hi _)
  | symbolLogged => exact absurd rfl (hi _)
  | _ => simp

/-- No command but L_PROC changes what a cell reads as (spec 00 R15). -/
theorem exec_logByte_of_ne_lProc {i : Instr} {s t : State} (hi : ∀ a, i ≠ .lProc a)
    (h : exec i s = .next t) (l : LogSel) (n : Nat) : t.logByte l n = s.logByte l n := by
  obtain ⟨e, rfl⟩ | ⟨u, d, hu, rfl⟩ := exec_next_cases h
  · exact raise_logByte s e l n
  · rw [respond_logByte]
    exact hu.logByte_eq hi l n

/-- A dropped byte and a full log leave what every cell reads as (spec 41 R141). -/
theorem lProc_logByte_of_other_or_full {s t : State} {a : Byte}
    (hout : lorenzClass s.cfg a = .other ∨ s.loglen.toNat = s.cfg.logDepth)
    (h : exec (.lProc a) s = .next t) (l : LogSel) (n : Nat) : t.logByte l n = s.logByte l n := by
  by_cases ha : lorenzClass s.cfg a = .other
  · obtain rfl := Host.Outcome.next.inj ((exec_lProc_of_other ha).symm.trans h)
    exact respond_logByte s _ l n
  · have hfull := hout.resolve_left ha
    obtain rfl := Host.Outcome.next.inj ((exec_lProc_of_full ha hfull).symm.trans h)
    exact raise_logByte s _ l n

/-- Settles O37: an append writes one cell of each log, the step of the wheels and the response none,
and by cases on what a command writes no other command writes a cell. -/
theorem onlyLprocWritesTheLogs : Obligations.OnlyLprocWritesTheLogs := by
  unfold Obligations.OnlyLprocWritesTheLogs
  refine ⟨fun s t a c k ha hroom h => ?_, fun s t a ha hroom h => ?_,
    fun s t a hout h => lProc_logByte_of_other_or_full hout h,
    fun i s t hi h => exec_logByte_of_ne_lProc hi h⟩
  · obtain rfl := Host.Outcome.next.inj ((exec_lProc_of_symbol ha hroom).symm.trans h)
    simpa [AppendedAt] using appended_appendedAt s c (s.encryptChar k)
  · obtain rfl := Host.Outcome.next.inj ((exec_lProc_of_newline ha hroom).symm.trans h)
    simpa [AppendedAt, newlineByte] using appended_appendedAt s newlineByte newlineByte

end Sys2Proof.Machine
end

section
/-!
The invariant, from reset and along every edge. What the spec says of each element is a predicate of
its own with one lemma per write (`Wheel.Fits`, `LogFits`); `State.Sound` gathers them for the whole
block, and the invariant is `State.Sound` with what it says of the port (`inv_iff`). Between the
acceptance of a command and its response only `State.Sound` holds: the latency is running already and
no response is there yet.
-/

namespace Sys2Proof.Machine

/-! ### Wheels -/

/-- A wheel fits its size: it has that many pins and its position is below it (spec 10 R31). -/
structure Wheel.Fits (size : Nat) (v : Wheel) : Prop where
  pins_length : v.pins.length = size
  pos_lt : v.pos < size

theorem Wheel.Fits.zero {size : Nat} (h : 1 ≤ size) : (Wheel.zero size).Fits size :=
  ⟨List.length_replicate, h⟩

theorem Wheel.Fits.step {size : Nat} {v : Wheel} (h : v.Fits size) : (v.step size).Fits size :=
  ⟨h.pins_length, Nat.mod_lt _ (Nat.zero_lt_of_lt h.pos_lt)⟩

theorem Wheel.Fits.setPin {size : Nat} {v : Wheel} (h : v.Fits size) (b : Bool) :
    (v.setPin b).Fits size :=
  ⟨List.length_set.trans h.pins_length, h.pos_lt⟩

/-! ### Logs -/

/-- A log fits its depth with the first `len` cells in use: it is in canonical form, no cell stands
at or above the depth, and every cell in use has been written (spec 10 R32, R33, 20 R50). -/
structure LogFits (depth len : Nat) (m : LogMem) : Prop where
  canonical : logCanonical m = true
  in_range : ∀ n, logLookup m n ≠ none → n < depth
  written : ∀ n < len, logLookup m n ≠ none

theorem LogFits.nil (depth : Nat) : LogFits depth 0 [] :=
  ⟨rfl, fun _ h => absurd rfl h, fun _ h => absurd h (Nat.not_lt_zero _)⟩

/-- Truncation leaves the cells and lowers the length. -/
theorem LogFits.truncate {depth len n : Nat} {m : LogMem} (h : LogFits depth len m)
    (hn : n ≤ len) : LogFits depth n m :=
  { h with written := fun k hk => h.written k (Nat.lt_of_lt_of_le hk hn) }

/-- An append writes the cell at the length and raises the length. -/
theorem LogFits.append {depth len : Nat} {m : LogMem} (h : LogFits depth len m)
    (hroom : len < depth) (v : Byte) : LogFits depth (len + 1) (logInsert m len v) where
  canonical := logCanonical_insert m len v h.canonical
  in_range n hn := by
    by_cases he : n = len
    · exact he ▸ hroom
    · exact h.in_range n (logLookup_insert_other m len n v he ▸ hn)
  written n hn := by
    by_cases he : n = len
    · simp [he]
    · rw [logLookup_insert_other m len n v he]
      exact h.written n (by omega)

/-! ### The plugboard -/

/-- Pairing two letters without a partner keeps the plugboard an involution. -/
theorem partner_involutive_addPair {s : State} {x y : Letter} (h : s.partner.Involutive)
    (hfx : s.partner x = x) (hfy : s.partner y = y) :
    ((s.setPartner x y).setPartner y x).partner.Involutive := by
  intro z
  by_cases hzy : z = y
  · simp [setPartner_partner, hzy]
  · by_cases hzx : z = x
    · simp [setPartner_partner, hzx]
    · have hpx : s.partner z ≠ x := by rwa [Ne, h.eq_iff, hfx]
      have hpy : s.partner z ≠ y := by rwa [Ne, h.eq_iff, hfy]
      simp [setPartner_partner, hzx, hzy, hpx, hpy, h z]

/-- Parting two partners keeps the plugboard an involution. -/
theorem partner_involutive_removePair {s : State} {x y : Letter} (h : s.partner.Involutive)
    (hxy : s.partner x = y) :
    ((s.setPartner x x).setPartner y y).partner.Involutive := by
  have hyx : s.partner y = x := hxy ▸ h x
  intro z
  by_cases hzy : z = y
  · simp [setPartner_partner, hzy]
  · obtain rfl | hzx := eq_or_ne z x
    · simp [setPartner_partner, hzy]
    · have hpx : s.partner z ≠ x := by rwa [Ne, h.eq_iff, hxy]
      have hpy : s.partner z ≠ y := by rwa [Ne, h.eq_iff, hyx]
      simp [setPartner_partner, hzx, hzy, hpx, hpy, h z]

/-! ### The invariant without the port -/

/-- What the invariant says of the elements of the block, whatever the port does. -/
structure State.Sound (s : State) : Prop where
  cfg_wellFormed : s.cfg.WellFormed
  chain_length : s.slots.length = s.cfg.nrot
  plug_involutive : s.partner.Involutive
  wheel_fits : ∀ w : WheelIx, (s.wheel w).Fits s.cfg.wheelSizes[w]
  loglen_le : s.loglen.toNat ≤ s.cfg.logDepth
  log_fits : ∀ l : LogSel, LogFits s.cfg.logDepth s.loglen.toNat (s.log l)

/-- The invariant is what it says of the elements, a legal response in flight, and no latency running
without one. -/
theorem inv_iff (s : State) : s.Inv ↔
    s.Sound ∧ (∀ r, s.rsp = some r → legalResponse r) ∧ (s.rsp = none → s.wait = 0) := by
  constructor
  · intro h
    exact ⟨⟨h.cfg_wellFormed, h.chain_length, h.plug_involutive,
      fun w => ⟨h.pins_length w, h.wheel_in_range w⟩, h.loglen_le,
      fun l => ⟨h.logs_canonical l, h.logs_in_range l, h.logs_written l⟩⟩,
      h.response_legal, h.idle_not_waiting⟩
  · rintro ⟨h, hlegal, hidle⟩
    exact ⟨h.cfg_wellFormed, h.chain_length, h.plug_involutive,
      fun w => (h.wheel_fits w).pins_length, fun w => (h.wheel_fits w).pos_lt, h.loglen_le,
      fun l => (h.log_fits l).canonical, fun l => (h.log_fits l).in_range,
      fun l => (h.log_fits l).written, hlegal, hidle⟩

namespace State.Sound

section
variable {s : State} (h : s.Sound)
include h

theorem respond (d : Data) : (s.respond d).Sound := { h with }
theorem raise (e : ErrorStatus) : (s.raise e).Sound := { h with }
theorem clearErrors : s.clearErrors.Sound := { h with }
theorem setRefl (r : ReflectorSel) : (s.setRefl r).Sound := { h with }
theorem dropPins : s.dropPins.Sound := { h with }
theorem startLatency : s.startLatency.Sound := { h with }
theorem countDown : s.countDown.Sound := { h with }
theorem takeResponse (r : Word) : (s.takeResponse r).Sound := { h with }

theorem setSlot (n : Nat) (v : Slot) : (s.setSlot n v).Sound :=
  { h with chain_length := List.length_set.trans h.chain_length }

theorem stepRotors : s.stepRotors.Sound :=
  { h with chain_length := (stepChain_length _ _ _).trans h.chain_length }

theorem setWheel {w : WheelIx} {v : Wheel} (hv : v.Fits s.cfg.wheelSizes[w]) :
    (s.setWheel w v).Sound :=
  { h with
    wheel_fits := fun u => by
      rw [setWheel_wheel, setWheel_cfg]
      split
      · next hu => exact hu ▸ hv
      · exact h.wheel_fits u }

theorem stepWheel (w : WheelIx) : (s.stepWheel w).Sound := h.setWheel (h.wheel_fits w).step

theorem setLoglen {n : Data} (hn : n.toNat ≤ s.loglen.toNat) : (s.setLoglen n).Sound :=
  { h with
    loglen_le := hn.trans h.loglen_le
    log_fits := fun l => (h.log_fits l).truncate hn }

/-- The length grows by one without wrapping, since LOG_DEPTH is at most 65535 (spec 00 R7). -/
theorem appended (hroom : s.loglen.toNat < s.cfg.logDepth) (p c : Byte) :
    (s.appended p c).Sound := by
  have hdepth := h.cfg_wellFormed.logDepth_le
  have hlen : (s.appended p c).loglen.toNat = s.loglen.toNat + 1 :=
    BitVec.toNat_add_of_lt (show s.loglen.toNat + 1 < 2 ^ 16 by omega)
  refine { h with loglen_le := hlen ▸ hroom, log_fits := fun l => ?_ }
  rw [hlen]
  cases l with
  | pt => exact (h.log_fits .pt).append hroom p
  | ct => exact (h.log_fits .ct).append hroom c

end

theorem stepEach {s : State} (h : s.Sound) (ws : List WheelIx) : (s.stepEach ws).Sound := by
  induction ws generalizing s with
  | nil => exact h
  | cons w ws ih => exact ih (h.stepWheel w)

theorem stepWheels {s : State} (h : s.Sound) : s.stepWheels.Sound := h.stepEach _

end State.Sound

theorem wheelPosition_lt {c : Config} {w : WheelIx} {a : Byte} {p : Nat}
    (h : wheelPosition c w a = some p) : p < c.wheelSizes[w] := by
  unfold wheelPosition at h
  split at h
  · next ha => exact Option.some.inj h ▸ ha
  · cases h

/-- The writes of every command keep what the invariant says of the elements. -/
theorem CommandWrites.sound {i : Instr} {s u : State} (hu : CommandWrites s i u) (h : s.Sound) :
    u.Sound := by
  cases hu with
  | nothing => exact h
  | errorsCleared => exact h.clearErrors
  | rotorsStepped => exact h.stepRotors
  | rotorFitted => exact h.setSlot _ _
  | rotorPositioned => exact h.setSlot _ _
  | latchSet => exact h.setSlot _ _
  | reflectorSelected => exact h.setRefl _
  | pairAdded hx hy hne hfx hfy =>
    exact { h with plug_involutive := partner_involutive_addPair h.plug_involutive hfx hfy }
  | pairRemoved hx hy hne hxy =>
    exact { h with plug_involutive := partner_involutive_removePair h.plug_involutive hxy }
  | newlineLogged ha hroom => exact h.appended hroom _ _
  | symbolLogged ha hroom => exact (h.appended hroom _ _).stepWheels
  | wheelPositioned hw hp => exact h.setWheel { h.wheel_fits _ with pos_lt := wheelPosition_lt hp }
  | pinSet hw hv => exact h.setWheel ((h.wheel_fits _).setPin _)
  | logTruncated hn => exact h.setLoglen hn

/-! ### Responses -/

theorem legalResponse_okResponse (d : Data) : legalResponse (okResponse d) :=
  ⟨by simp, middle_responseWord _ d, fun h => absurd (status_okResponse d) h⟩

theorem legalResponse_errorResponse (e : ErrorStatus) : legalResponse (errorResponse e) :=
  ⟨by simpa using errorCode_le_seven e, middle_responseWord _ _, fun _ => data_responseWord _ _⟩

/-- A response to sound elements meets the invariant, however long its latency is. -/
theorem State.Sound.inv_of_rsp {s : State} {r : Word} (h : s.Sound) (hr : s.rsp = some r)
    (hlegal : legalResponse r) : s.Inv := by
  refine (inv_iff s).2 ⟨h, fun q hq => ?_, fun hnone => ?_⟩
  · exact Option.some.inj (hr.symm.trans hq) ▸ hlegal
  · cases hr.symm.trans hnone

theorem State.Sound.inv_respond {s : State} (h : s.Sound) (d : Data) : (s.respond d).Inv :=
  (h.respond d).inv_of_rsp rfl (legalResponse_okResponse d)

theorem State.Sound.inv_raise {s : State} (h : s.Sound) (e : ErrorStatus) : (s.raise e).Inv :=
  (h.raise e).inv_of_rsp rfl (legalResponse_errorResponse e)

/-- A command word run on sound elements leaves the invariant, its response included. -/
theorem State.Sound.inv_of_runWord {s t : State} {w : Word} (h : s.Sound)
    (ht : runWord w s = .next t) : t.Inv := by
  unfold runWord at ht
  split at ht
  · exact Host.Outcome.next.inj ht ▸ h.inv_raise _
  · obtain ⟨e, rfl⟩ | ⟨u, d, hu, rfl⟩ := exec_next_cases ht
    · exact h.inv_raise e
    · exact (hu.sound h).inv_respond d

/-! ### Reset -/

theorem resetFor_partner (c : Config) (x : Letter) : (State.resetFor c).partner x = x := by
  show emptyPlug[x] = x
  revert x
  decide

theorem resetFor_wheel (c : Config) (w : WheelIx) :
    (State.resetFor c).wheel w = Wheel.zero c.wheelSizes[w] := by
  fin_cases w <;> rfl

theorem resetFor_log (c : Config) (l : LogSel) : (State.resetFor c).log l = [] := by
  cases l <;> rfl

theorem resetFor_sound {c : Config} (h : c.WellFormed) : (State.resetFor c).Sound where
  cfg_wellFormed := h
  chain_length := List.length_replicate
  plug_involutive x := by simp [resetFor_partner]
  wheel_fits w := resetFor_wheel c w ▸ Wheel.Fits.zero (h.sizes_pos w)
  loglen_le := Nat.zero_le _
  log_fits l := resetFor_log c l ▸ LogFits.nil _

theorem resetFor_inv {c : Config} (h : c.WellFormed) : (State.resetFor c).Inv :=
  (inv_iff _).2 ⟨resetFor_sound h, nofun, fun _ => rfl⟩

/-- The edge with `rst` leaves the elements of the reset state (spec 70 R190). -/
theorem hardReset_inv {s : State} (h : s.cfg.WellFormed) : s.hardReset.Inv :=
  (inv_iff _).2 ⟨{ resetFor_sound h with }, nofun, fun _ => rfl⟩

/-! ### Edges -/

/-- An edge with any inputs keeps the invariant. -/
theorem edge_inv {s t : State} {p : PortIn} (h : s.Inv) (ht : s.edge p = .next t) : t.Inv := by
  obtain ⟨hs, hlegal, -⟩ := (inv_iff s).1 h
  rcases edge_cases s p with ⟨-, he⟩ | ⟨-, -, -, he⟩ | ⟨-, -, -, he⟩ | ⟨r, -, -, hw, -, he⟩ |
    ⟨r, -, -, -, -, he⟩ | ⟨r, -, hr, -, he⟩ <;> rw [he] at ht
  · cases ht; exact hardReset_inv hs.cfg_wellFormed
  · exact hs.startLatency.inv_of_runWord ht
  · cases ht; exact h
  · cases ht; exact (inv_iff _).2 ⟨hs.takeResponse r, nofun, fun _ => hw⟩
  · cases ht; exact h
  · cases ht; exact hs.countDown.inv_of_rsp hr (hlegal r hr)

/-- Settles O54: the step of a well-formed configuration is its edge, after which the input is over,
and `edge_inv` takes the edge case by case. -/
theorem stepKeepsTheInvariant : Obligations.StepKeepsTheInvariant := by
  unfold Obligations.StepKeepsTheInvariant
  intro s t h ht
  rw [step_eq_edge s ((wf_iff _).2 h.cfg_wellFormed)] at ht
  obtain ⟨hs, hlegal, hidle⟩ := (inv_iff s).1 h
  exact edge_inv ((inv_iff s.dropPins).2 ⟨hs.dropPins, hlegal, hidle⟩) ht

/-- Settles O53: the default configuration is one of the well-formed ones. -/
theorem invariantHoldsAtReset : Obligations.InvariantHoldsAtReset := by
  unfold Obligations.InvariantHoldsAtReset
  exact ⟨rfl, resetFor_inv default_wellFormed, fun _ h => resetFor_inv h⟩

/-- Settles O52: each element's reset value, and the edge with `rst` gives that of the state's own
configuration. -/
theorem resetGivesEveryElementItsValue : Obligations.ResetGivesEveryElementItsValue := by
  unfold Obligations.ResetGivesEveryElementItsValue
  refine ⟨fun c => ⟨rfl, rfl, resetFor_partner c, fun w => ?_, rfl, rfl, rfl⟩,
    fun s p rest hwf hpins hrst => ⟨s.dropPins.hardReset, ?_, rfl, rfl, rfl, rfl, rfl, rfl, rfl, rfl,
      rfl⟩⟩
  · have hw : (State.resetFor c).wheels[w] = Wheel.zero c.wheelSizes[w] := resetFor_wheel c w
    rw [hw]
    exact ⟨rfl, rfl⟩
  · have hp : s.pinsNow = p := by simp [State.pinsNow, hpins]
    rw [step_eq_edge s hwf, hp]
    exact if_pos hrst

end Sys2Proof.Machine
end

section
/-!
The flags of the block: the latches, the configured bits and the error flags. What one call of Step
does to the first and to the last latch of a chain, and which commands write a flag, by cases on what
a command writes.
-/

namespace Sys2Proof.Machine

/-! ### The first and the last latch of a chain -/

theorem slot_zero_lat (s : State) : (s.slot 0).lat = firstLatch s.slots := by
  unfold State.slot
  cases s.slots <;> rfl

/-- Step leaves a set first latch set (spec 10 R39). -/
theorem firstLatch_stepChain (c : Config) (n : Nat) (l : List Slot) (h : firstLatch l = true) :
    firstLatch (stepChain c n l) = true := by
  cases n with
  | zero => exact h
  | succ n =>
    cases l with
    | nil => exact h
    | cons r rest =>
      rw [stepChain_cons]
      dsimp only
      split
      · rfl
      · exact h

/-- The chain has a last slot and its latch is clear. -/
def LastLatchClear (l : List Slot) : Prop := ∃ l' r, l = l' ++ [r] ∧ r.lat = false

theorem LastLatchClear.cons {l : List Slot} (r : Slot) (h : LastLatchClear l) :
    LastLatchClear (r :: l) := by
  obtain ⟨l', r', rfl, hr⟩ := h
  exact ⟨r :: l', r', rfl, hr⟩

theorem LastLatchClear.clearFirstLatch {l : List Slot} (h : LastLatchClear l) :
    LastLatchClear (clearFirstLatch l) := by
  obtain ⟨l', r, rfl, hr⟩ := h
  cases l' with
  | nil => exact ⟨[], _, rfl, rfl⟩
  | cons q l' => exact ⟨_ :: l', r, rfl, hr⟩

/-- Step leaves a clear last latch clear (spec 10 R40): a call changes its own first slot and calls
Step on the rest of the chain, and it sets its own latch only when the rest is not empty. -/
theorem LastLatchClear.stepChain {l : List Slot} (h : LastLatchClear l) (c : Config) (n : Nat) :
    LastLatchClear (stepChain c n l) := by
  induction n generalizing l with
  | zero => exact h
  | succ n ih =>
    obtain ⟨l', r, rfl, hr⟩ := h
    cases l' with
    | nil => exact ⟨[], r.advance, stepChain_single c n r, hr⟩
    | cons q l' =>
      have hrest : LastLatchClear (l' ++ [r]) := ⟨l', r, rfl, hr⟩
      have hrest1 : LastLatchClear (if firstLatch (l' ++ [r]) && q.lat then
          Machine.clearFirstLatch (Machine.stepChain c n (l' ++ [r])) else l' ++ [r]) := by
        split
        · exact (ih hrest).clearFirstLatch
        · exact hrest
      rw [List.cons_append, stepChain_cons]
      dsimp only
      split
      · exact (ih hrest1).cons _
      · exact hrest1.cons _

theorem atNotch_of_mem {c : Config} {r : Slot} (h : r.pos ∈ (c.rotors[r.id]).notches) :
    atNotch c r = true :=
  List.contains_iff_mem.2 h

/-- A step from a notch position sets the first latch, where there is a successor (spec 40 R92). -/
theorem stepChain_of_notch {c : Config} {r : Slot} {rest : List Slot} (n : Nat)
    (hrest : rest ≠ []) (h : r.pos ∈ (c.rotors[r.id]).notches) :
    ∃ l, stepChain c (n + 1) (r :: rest) = { r with pos := r.pos + 1, lat := true } :: l := by
  rw [stepChain_cons]
  simp [hrest, atNotch_of_mem h, Slot.advance]

/-! ### What a write to one slot keeps -/

/-- A write to a slot that keeps a field of it leaves that field of every slot. -/
theorem map_setSlot_slots {α : Type} (f : Slot → α) (s : State) (n : Nat) (v : Slot)
    (hv : f v = f (s.slot n)) : (s.setSlot n v).slots.map f = s.slots.map f := by
  rw [setSlot_slots, List.map_set, hv]
  apply List.ext_getElem?
  intro j
  by_cases hj : n = j
  · subst hj
    by_cases hn : n < s.slots.length
    · simp [State.slot, hn]
    · simp [hn]
  · rw [List.getElem?_set_ne hj]

/-- A field that every listed slot keeps, every slot keeps. -/
theorem slot_field_eq {α : Type} (f : Slot → α) {s t : State}
    (h : t.slots.map f = s.slots.map f) (j : Nat) : f (t.slot j) = f (s.slot j) := by
  calc f (t.slot j) = (t.slots.map f).getD j (f Slot.unfitted) := (List.getD_map ..).symm
    _ = (s.slots.map f).getD j (f Slot.unfitted) := by rw [h]
    _ = f (s.slot j) := List.getD_map ..

/-- A write of a fitted slot makes no slot unfitted. -/
theorem setSlot_fitted {s : State} {v : Slot} (hv : v.fitted = true) (n j : Nat)
    (h : (s.slot j).fitted = true) : ((s.setSlot n v).slot j).fitted = true := by
  by_cases hj : n = j
  · subst hj
    by_cases hn : n < s.slots.length
    · rwa [setSlot_slot_same s n v hn]
    · have hout : s.slot n = Slot.unfitted := by simp [State.slot, hn]
      rw [hout] at h
      cases h
  · rwa [setSlot_slot_other s n j v hj]

theorem slotIndex_eq_some {c : Config} {idx : Byte} {n : Nat} (h : slotIndex c idx = some n) :
    idx.toNat = n := by
  unfold slotIndex at h
  split at h
  · exact Option.some.inj h
  · cases h

/-! ### Which writes of a command touch a flag -/

@[simp] theorem stepWheels_slots (s : State) : s.stepWheels.slots = s.slots := by
  rw [stepWheels_frame]

@[simp] theorem stepWheels_refl (s : State) : s.stepWheels.refl = s.refl := by
  rw [stepWheels_frame]

@[simp] theorem stepWheels_errf (s : State) : s.stepWheels.errf = s.errf := by
  rw [stepWheels_frame]

@[simp] theorem appended_slots (s : State) (p c : Byte) : (s.appended p c).slots = s.slots := rfl
@[simp] theorem appended_refl (s : State) (p c : Byte) : (s.appended p c).refl = s.refl := rfl
@[simp] theorem appended_errf (s : State) (p c : Byte) : (s.appended p c).errf = s.errf := rfl

section
variable {i : Instr} {s u : State} (hu : CommandWrites s i u)
include hu

/-- The latches change by the step of E_ENTER and by the writes of E_SETLAT and E_SETROT to the slot
they name. -/
theorem CommandWrites.lats :
    u.slots.map Slot.lat = s.slots.map Slot.lat ∨
      (∃ a, i = .eEnter a ∧ u = s.stepRotors) ∨
      ∃ idx a v, (i = .eSetlat idx a ∨ i = .eSetrot idx a) ∧ u = s.setSlot idx.toNat v := by
  cases hu with
  | rotorsStepped => exact .inr (.inl ⟨_, rfl, rfl⟩)
  | rotorFitted hn =>
    obtain rfl := slotIndex_eq_some hn
    exact .inr (.inr ⟨_, _, _, .inr rfl, rfl⟩)
  | latchSet hn =>
    obtain rfl := slotIndex_eq_some hn
    exact .inr (.inr ⟨_, _, _, .inl rfl, rfl⟩)
  | rotorPositioned => exact .inl (map_setSlot_slots Slot.lat s _ _ rfl)
  | _ => exact .inl (by simp)

/-- The configured bits of the slots change by the write of E_SETROT alone, which writes a fitted
slot. -/
theorem CommandWrites.fitteds :
    u.slots.map Slot.fitted = s.slots.map Slot.fitted ∨
      ∃ idx a n k, i = .eSetrot idx a ∧ u = s.setSlot n ⟨true, k, 0, false⟩ := by
  cases hu with
  | rotorsStepped =>
    have hid : identities s.stepRotors.slots = identities s.slots := stepChain_identities _ _ _
    exact .inl (by simpa [identities, Function.comp_def] using congrArg (List.map Prod.fst) hid)
  | rotorFitted => exact .inr ⟨_, _, _, _, rfl, rfl⟩
  | latchSet => exact .inl (map_setSlot_slots Slot.fitted s _ _ rfl)
  | rotorPositioned => exact .inl (map_setSlot_slots Slot.fitted s _ _ rfl)
  | _ => exact .inl (by simp)

/-- The reflector select register changes by E_SETREF alone, which selects a reflector. -/
theorem CommandWrites.reflector :
    u.refl = s.refl ∨ (∃ a, i = .eSetref a) ∧ u.refl.fitted = true := by
  cases hu with
  | reflectorSelected => exact .inr ⟨⟨_, rfl⟩, rfl⟩
  | _ => exact .inl (by simp)

/-- Among the writes only those of CLRERR change the error flags. -/
theorem CommandWrites.errorFlags : u.errf = s.errf ∨ i = .clrerr := by
  cases hu with
  | errorsCleared => exact .inr rfl
  | _ => exact .inl (by simp)

/-- A set latch of slot 0 stays set but by E_SETLAT or E_SETROT on slot 0 (spec 10 R39). -/
theorem CommandWrites.first_lat (hlat : (s.slot 0).lat = true) :
    (u.slot 0).lat = true ∨ (∃ a, i = .eSetlat 0 a) ∨ ∃ a, i = .eSetrot 0 a := by
  obtain hsame | ⟨a, -, rfl⟩ | ⟨idx, a, v, hi, rfl⟩ := hu.lats
  · exact .inl ((slot_field_eq Slot.lat hsame 0).trans hlat)
  · rw [slot_zero_lat] at hlat ⊢
    exact .inl (firstLatch_stepChain _ _ _ hlat)
  · by_cases hidx : idx = 0
    · subst hidx
      exact .inr (hi.imp (fun h => ⟨a, h⟩) fun h => ⟨a, h⟩)
    · have hne : idx.toNat ≠ 0 := fun h => hidx (BitVec.eq_of_toNat_eq h)
      exact .inl ((congrArg Slot.lat (setSlot_slot_other s _ 0 v hne)).trans hlat)

/-- The writes of a command make no slot unfitted (spec 70 R192). -/
theorem CommandWrites.keeps_fitted (j : Nat) (hj : (s.slot j).fitted = true) :
    (u.slot j).fitted = true := by
  obtain hsame | ⟨_, _, n, k, -, rfl⟩ := hu.fitteds
  · exact (slot_field_eq Slot.fitted hsame j).trans hj
  · exact setSlot_fitted rfl n j hj

end

/-- Settles O19: an error status leaves the latches, the writes of a command leave slot 0's latch set,
and the two clauses on a chain are those of one call of Step. -/
theorem firstLatchStaysAndLastLatchIsNotSet : Obligations.FirstLatchStaysAndLastLatchIsNotSet := by
  unfold Obligations.FirstLatchStaysAndLastLatchIsNotSet
  refine ⟨fun i s t h hlat => ?_, fun c r r' rest h => ?_, fun c l r hr => ?_⟩
  · obtain ⟨e, rfl⟩ | ⟨u, d, hu, rfl⟩ := exec_next_cases h
    · exact .inl hlat
    · exact hu.first_lat hlat
  · exact stepChain_of_notch (rest.length + 1) (List.cons_ne_nil r' rest) h
  · exact LastLatchClear.stepChain ⟨l, r, rfl, hr⟩ c (l.length + 1)

/-- Settles O48: an error status writes the error flags alone, and the writes of a command are taken
flag by flag. -/
theorem flagsAreWrittenOnlyByNamedCommands : Obligations.FlagsAreWrittenOnlyByNamedCommands := by
  unfold Obligations.FlagsAreWrittenOnlyByNamedCommands
  intro i s t h
  obtain ⟨e, rfl⟩ | ⟨u, d, hu, rfl⟩ := exec_next_cases h
  · exact ⟨fun hne => absurd rfl hne, fun hne => absurd rfl hne, fun hne => absurd rfl hne,
      fun _ => .inr ⟨e, rfl⟩, fun _ hj => hj, fun hr => hr⟩
  · refine ⟨fun hne => ?_, fun hne => ?_, fun hne => ?_, fun hne => ?_, hu.keeps_fitted, fun hr => ?_⟩
    · obtain ⟨a, hi, -⟩ | ⟨idx, a, -, hi, -⟩ := hu.lats.resolve_left hne
      · exact .inl ⟨a, hi⟩
      · exact .inr (hi.imp (fun h => ⟨idx, a, h⟩) fun h => ⟨idx, a, h⟩)
    · obtain ⟨idx, a, -, -, hi, -⟩ := hu.fitteds.resolve_left hne
      exact ⟨idx, a, hi⟩
    · exact (hu.reflector.resolve_left fun he => hne (congrArg ReflectorSel.fitted he)).1
    · exact .inl (hu.errorFlags.resolve_left hne)
    · obtain he | ⟨-, hfit⟩ := hu.reflector
      · exact (congrArg ReflectorSel.fitted he).trans hr
      · exact hfit

end Sys2Proof.Machine
end

section
/-!
The read class (spec 20 R64): a command of it ends with a response or an error status, and the
response and the error flags it finds in the state do not change which, so at the state it leaves it
ends the same way again.
-/

namespace Sys2Proof.Machine

/-- The three ways a command of the read class can end: a response that writes nothing else, whatever
response stood before; an error status, whatever response and error flags stood before; or a fault. -/
inductive ReadEnds (s : State) (i : Instr) : Prop
  | responds (d : Data) (h : ∀ r, exec i { s with rsp := r } = .next (s.respond d))
  | raises (e : ErrorStatus)
      (h : ∀ r f, exec i { s with rsp := r, errf := f } =
        .next (State.raise { s with errf := f } e))
  | faults (f : Fault) (h : exec i s = .fault f)

/-- A command that raises `e` where its operand names nothing, and else answers with data, ends as a
read does. -/
theorem ReadEnds.of_operand {s : State} {i : Instr} {α : Type} (o : Option α) (e : ErrorStatus)
    (d : α → Data)
    (h : ∀ r f, exec i { s with rsp := r, errf := f } =
      o.elim (.next (State.raise { s with errf := f } e))
        fun x => .next (State.respond { s with errf := f } (d x))) :
    ReadEnds s i := by
  cases o with
  | none => exact .raises e h
  | some x => exact .responds (d x) fun r => h r s.errf

theorem execInfo_readEnds (idx : Byte) (s : State) : ReadEnds s (.info idx) := by
  match h : idx.toNat with
  | 0 =>
    exact .responds (BitVec.ofNat 16 s.cfg.nrot) fun r => by simp only [exec, execInfo, h]; rfl
  | 1 =>
    exact .responds (BitVec.ofNat 16 s.cfg.logDepth) fun r => by simp only [exec, execInfo, h]; rfl
  | n + 2 => exact .raises .index fun r f => by simp only [exec, execInfo, h]; rfl

/-- E_XFORM substitutes by the rotors, the reflector and the plugboard alone (spec 40 R102). -/
theorem execEXform_readEnds (a : Byte) (s : State) : ReadEnds s (.eXform a) := by
  cases hx : enigmaLetter s.cfg a with
  | none => exact .responds (enigmaData false a) fun r => by simp only [exec, execEXform, hx]; rfl
  | some x =>
    by_cases hready : s.enigmaReady = true
    · refine .responds (enigmaData true (letterByte (s.transform x))) fun r => ?_
      simp only [exec, execEXform, hx]
      exact if_pos hready
    · refine .raises .nocfg fun r f => ?_
      simp only [exec, execEXform, hx]
      exact if_neg hready

theorem execLXform_readEnds (a : Byte) (s : State) : ReadEnds s (.lXform a) := by
  cases ha : lorenzClass s.cfg a with
  | newline =>
    exact .responds (lorenzData .newline newlineByte) fun r => by
      simp only [exec, execLXform, ha]; rfl
  | other =>
    exact .responds (lorenzData .dropped 0) fun r => by simp only [exec, execLXform, ha]; rfl
  | symbol c k =>
    exact .responds (lorenzData .enciphered (s.encryptChar k)) fun r => by
      simp only [exec, execLXform, ha]; rfl

theorem execLLogrd_readEnds (idx : Byte) (n : Data) (s : State) : ReadEnds s (.lLogrd idx n) := by
  cases hl : logIndex idx with
  | none => exact .raises .index fun r f => by simp only [exec, execLLogrd, hl]; rfl
  | some l =>
    by_cases hlen : s.loglen.toNat ≤ n.toNat
    · exact .raises .logrange fun r f => by simp only [exec, execLLogrd, hl, if_pos hlen]; rfl
    · by_cases hn : n.toNat < s.cfg.logDepth
      · refine .responds ((s.logByte l n.toNat).setWidth 16) fun r => ?_
        simp only [exec, execLLogrd, hl, if_neg hlen, memRead_ok { s with rsp := r } l n.toNat hn]
        cases l <;> rfl
      · exact .faults .noLogEntry (by simp [exec, execLLogrd, hl, hlen, State.memRead, hn])

/-- Every command of the read class ends as a read does. -/
theorem exec_readEnds {i : Instr} (hi : i.isRead = true) (s : State) : ReadEnds s i := by
  cases i with
  | nop => exact .responds 0 fun _ => rfl
  | geterr => exact .responds (s.errf.setWidth 16) fun _ => rfl
  | info idx => exact execInfo_readEnds idx s
  | eXform a => exact execEXform_readEnds a s
  | eGetrot idx =>
    exact .of_operand (slotIndex s.cfg idx) .index
      (fun n => if (s.slot n).fitted then BitVec.ofNat 16 (s.slot n).id.val else 0xFFFF)
      fun _ _ => by
        simp only [exec, execEGetrot]; cases slotIndex s.cfg idx <;> rfl
  | eGetpos idx =>
    exact .of_operand (slotIndex s.cfg idx) .index
      (fun n => BitVec.ofNat 16 (s.slot n).pos.val) fun _ _ => by
        simp only [exec, execEGetpos]; cases slotIndex s.cfg idx <;> rfl
  | eGetlat idx =>
    exact .of_operand (slotIndex s.cfg idx) .index
      (fun n => (BitVec.ofBool (s.slot n).lat).setWidth 16) fun _ _ => by
        simp only [exec, execEGetlat]; cases slotIndex s.cfg idx <;> rfl
  | eGetref =>
    exact .responds (if s.refl.fitted then BitVec.ofNat 16 s.refl.id.val else 0xFFFF) fun _ => rfl
  | eGetplg a =>
    exact .of_operand (letterOperand a) .value
      (fun x => BitVec.ofNat 16 (s.partner x).val) fun _ _ => by
        simp only [exec, execEGetplg]; cases letterOperand a <;> rfl
  | lXform a => exact execLXform_readEnds a s
  | lGetpos idx =>
    exact .of_operand (wheelIndex idx) .index
      (fun w => BitVec.ofNat 16 (s.wheel w).pos) fun _ _ => by
        simp only [exec, execLGetpos]; cases wheelIndex idx <;> rfl
  | lGetpin idx =>
    exact .of_operand (wheelIndex idx) .index
      (fun w => (BitVec.ofBool (s.currentPin w)).setWidth 16) fun _ _ => by
        simp only [exec, execLGetpin]; cases wheelIndex idx <;> rfl
  | lLoglen => exact .responds s.loglen fun _ => rfl
  | lLogrd idx n => exact execLLogrd_readEnds idx n s
  | bEnc a =>
    cases hk : baudotCode s.cfg a with
    | none => exact .responds 0xFFFF fun r => by simp only [exec, execBEnc, hk]; rfl
    | some k => exact .responds (k.setWidth 16) fun r => by simp only [exec, execBEnc, hk]; rfl
  | bDec a =>
    exact .of_operand (codeOperand a) .value
      (fun k => (baudotSymbol s.cfg k).setWidth 16) fun _ _ => by
        simp only [exec, execBDec]; cases codeOperand a <;> rfl
  | _ => cases hi

/-- The error flags are sticky: the same error raised again changes nothing (spec 10 R37). -/
@[simp] theorem raise_raise (s : State) (e : ErrorStatus) : (s.raise e).raise e = s.raise e := by
  simp [State.raise, BitVec.or_assoc]

/-- Settles O47: a read that responds differs from the state it left in the response alone, one that
raises differs in the response and the error flags, and `exec_readEnds` says that neither changes how
the command ends. -/
theorem readCommandsChangeNothing : Obligations.ReadCommandsChangeNothing := by
  unfold Obligations.ReadCommandsChangeNothing
  intro i s t hi ht
  cases exec_readEnds hi s with
  | responds d h =>
    obtain rfl := Host.Outcome.next.inj (ht.symm.trans (h s.rsp))
    exact ⟨.inl rfl, h _⟩
  | raises e h =>
    obtain rfl := Host.Outcome.next.inj (ht.symm.trans (h s.rsp s.errf))
    refine ⟨.inr ⟨e, rfl⟩, ?_⟩
    calc exec i (s.raise e) = .next ((s.raise e).raise e) := h _ _
      _ = .next (s.raise e) := by rw [raise_raise]
  | faults f h => cases ht.symm.trans h

end Sys2Proof.Machine
end

section
/-!
The opcode table and the decoder (spec 30 R70 to R83): a row matches a word when it heads the word's
opcode and the fields it does not use are zero, an opcode heads at most one row, and so a word decodes
in one of three ways, each with one condition.
-/

namespace Sys2Proof

/-! ### Words as fields -/

theorem Fields.toWord_injective : Function.Injective Fields.toWord :=
  Function.LeftInverse.injective fields_ofWord_toWord

/-- AND of two words is AND field by field. -/
theorem Fields.toWord_and (f g : Fields) : f.toWord &&& g.toWord =
    Fields.toWord ⟨f.op &&& g.op, f.idx &&& g.idx, f.b &&& g.b, f.a &&& g.a⟩ := by
  apply BitVec.eq_of_getLsbD_eq
  intro i hi
  simp only [BitVec.getLsbD_and, toWord_getLsbD]
  split_ifs <;> rfl

@[simp] theorem Fields.n_high_byte (f : Fields) : f.n.extractLsb' 8 8 = f.b := by
  apply BitVec.eq_of_getLsbD_eq
  intro i hi
  simp only [Fields.n, BitVec.getLsbD_append, BitVec.getLsbD_extractLsb']
  grind

@[simp] theorem Fields.n_low_byte (f : Fields) : f.n.extractLsb' 0 8 = f.a := by
  apply BitVec.eq_of_getLsbD_eq
  intro i hi
  simp only [Fields.n, BitVec.getLsbD_append, BitVec.getLsbD_extractLsb']
  grind

/-! ### Match and mask -/

theorem and_fieldMask_eq_zero_iff (used : Bool) (x : Byte) :
    x &&& fieldMask used = 0 ↔ (used || x == 0) = true := by
  cases used with
  | true => simp [fieldMask]
  | false =>
    have hmask : x &&& fieldMask false = x := BitVec.and_allOnes
    simp [hmask]

/-- A word meets a row's `match` and `mask` exactly when it has the row's opcode and every field the
row does not use is zero (spec 30 R75). -/
theorem and_mask_eq_pattern_iff (r : OpRow) (w : Word) :
    w &&& r.mask = r.pattern ↔
      r.op = (Fields.ofWord w).op ∧ r.unusedZero (Fields.ofWord w) = true := by
  generalize hf : Fields.ofWord w = f
  obtain rfl : f.toWord = w := hf ▸ fields_toWord_ofWord w
  have hop : f.op &&& 0xFF = f.op := BitVec.and_allOnes
  calc f.toWord &&& r.mask = r.pattern
      ↔ Fields.mk (f.op &&& 0xFF) (f.idx &&& fieldMask r.usesIdx) (f.b &&& fieldMask r.usesB)
          (f.a &&& fieldMask r.usesA) = ⟨r.op, 0, 0, 0⟩ := by
        rw [← Fields.toWord_injective.eq_iff, ← Fields.toWord_and f ⟨0xFF, _, _, _⟩]
        rfl
    _ ↔ r.op = f.op ∧ r.unusedZero f = true := by
        simp only [Fields.mk.injEq, hop, and_fieldMask_eq_zero_iff, OpRow.unusedZero,
          Bool.and_eq_true, and_assoc, eq_comm (a := f.op)]

/-! ### The rows of the table -/

theorem opcodes_nodup : (opcodeTable.map OpRow.op).Nodup := by decide

/-- An opcode heads at most one row (spec 30 R73). -/
theorem row_eq_of_op_eq {r q : OpRow} (hr : r ∈ opcodeTable) (hq : q ∈ opcodeTable)
    (h : r.op = q.op) : r = q :=
  List.inj_on_of_nodup_map opcodes_nodup hr hq h

/-- Two rows match no common word. -/
theorem opcodeTable_pairwise_disjoint : opcodeTable.Pairwise fun r q =>
    ∀ w : Word, ¬(w &&& r.mask = r.pattern ∧ w &&& q.mask = q.pattern) := by
  refine (List.pairwise_map.1 opcodes_nodup).imp fun {r q} hne w ⟨hr, hq⟩ => hne ?_
  exact ((and_mask_eq_pattern_iff r w).1 hr).1.trans ((and_mask_eq_pattern_iff q w).1 hq).1.symm

/-- The command a row makes of fields it matches has those fields: the row's command loses none that
the row uses, and the others are zero (spec 30 R75, R84). -/
theorem fields_build_of_mem {r : OpRow} (hr : r ∈ opcodeTable) {f : Fields} (hop : r.op = f.op)
    (hz : r.unusedZero f = true) : (r.build f).fields = f := by
  obtain ⟨op, idx, b, a⟩ := f
  obtain rfl : r.op = op := hop
  revert r
  simp +contextual [opcodeTable, controlRows, enigmaRows, lorenzRows, baudotRows,
    OpRow.unusedZero, Instr.fields]

/-! ### The three ways to decode -/

theorem decode_of_unassigned {w : Word} (h : ∀ r ∈ opcodeTable, r.op ≠ (Fields.ofWord w).op) :
    decode w = .error .illegal := by
  have hnone : opcodeTable.find? (fun r => r.op == (Fields.ofWord w).op) = none := by
    simpa [List.find?_eq_none] using h
  simp only [decode, decodeFields, hnone]

theorem decode_of_op_eq {w : Word} {r : OpRow} (hr : r ∈ opcodeTable)
    (hop : r.op = (Fields.ofWord w).op) :
    decode w = if r.unusedZero (Fields.ofWord w) then .ok (r.build (Fields.ofWord w))
      else .error .rsvd := by
  have hsome : opcodeTable.find? (fun r => r.op == (Fields.ofWord w).op) = some r := by
    obtain ⟨q, hq⟩ := Option.isSome_iff_exists.1
      ((List.find?_isSome (p := fun r : OpRow => r.op == (Fields.ofWord w).op)).2
        ⟨r, hr, beq_iff_eq.2 hop⟩)
    have hqop : q.op = (Fields.ofWord w).op := by simpa using List.find?_some hq
    rw [hq, row_eq_of_op_eq (List.mem_of_find?_eq_some hq) hr (hqop.trans hop.symm)]
  simp only [decode, decodeFields, hsome]

theorem decode_of_match {w : Word} {r : OpRow} (hr : r ∈ opcodeTable)
    (hm : w &&& r.mask = r.pattern) : decode w = .ok (r.build (Fields.ofWord w)) := by
  obtain ⟨hop, hz⟩ := (and_mask_eq_pattern_iff r w).1 hm
  rw [decode_of_op_eq hr hop, if_pos hz]

theorem decode_of_mismatch {w : Word} {r : OpRow} (hr : r ∈ opcodeTable)
    (hop : r.op = (Fields.ofWord w).op) (hm : w &&& r.mask ≠ r.pattern) :
    decode w = .error .rsvd := by
  rw [decode_of_op_eq hr hop, if_neg fun hz => hm ((and_mask_eq_pattern_iff r w).2 ⟨hop, hz⟩)]

/-- Everything a word can decode to (spec 30 R83): its opcode heads no row, or a row that does not
match the word, or some row matches it. -/
theorem decode_cases (w : Word) :
    ((∀ r ∈ opcodeTable, r.op ≠ (Fields.ofWord w).op) ∧ decode w = .error .illegal) ∨
      (∃ r ∈ opcodeTable, (r.op = (Fields.ofWord w).op ∧ w &&& r.mask ≠ r.pattern) ∧
        decode w = .error .rsvd) ∨
      (∃ r ∈ opcodeTable, w &&& r.mask = r.pattern ∧
        decode w = .ok (r.build (Fields.ofWord w))) := by
  by_cases h : ∃ r ∈ opcodeTable, r.op = (Fields.ofWord w).op
  · obtain ⟨r, hr, hop⟩ := h
    by_cases hm : w &&& r.mask = r.pattern
    · exact .inr (.inr ⟨r, hr, hm, decode_of_match hr hm⟩)
    · exact .inr (.inl ⟨r, hr, ⟨hop, hm⟩, decode_of_mismatch hr hop hm⟩)
  · have hun : ∀ r ∈ opcodeTable, r.op ≠ (Fields.ofWord w).op := fun r hr hop => h ⟨r, hr, hop⟩
    exact .inl ⟨hun, decode_of_unassigned hun⟩

theorem decode_eq_illegal_iff (w : Word) :
    decode w = .error .illegal ↔ ∀ r ∈ opcodeTable, r.op ≠ (Fields.ofWord w).op := by
  refine ⟨fun h => ?_, decode_of_unassigned⟩
  rcases decode_cases w with ⟨hun, -⟩ | ⟨_, -, -, hd⟩ | ⟨_, -, -, hd⟩
  · exact hun
  · cases hd.symm.trans h
  · cases hd.symm.trans h

theorem decode_eq_rsvd_iff (w : Word) : decode w = .error .rsvd ↔
    ∃ r ∈ opcodeTable, r.op = (Fields.ofWord w).op ∧ w &&& r.mask ≠ r.pattern := by
  refine ⟨fun h => ?_, fun ⟨r, hr, hop, hm⟩ => decode_of_mismatch hr hop hm⟩
  rcases decode_cases w with ⟨-, hd⟩ | ⟨r, hr, hrow, -⟩ | ⟨_, -, -, hd⟩
  · cases hd.symm.trans h
  · exact ⟨r, hr, hrow⟩
  · cases hd.symm.trans h

theorem decode_eq_ok_iff (w : Word) (i : Instr) : decode w = .ok i ↔
    ∃ r ∈ opcodeTable, w &&& r.mask = r.pattern ∧ r.build (Fields.ofWord w) = i := by
  refine ⟨fun h => ?_, fun ⟨r, hr, hm, hb⟩ => hb ▸ decode_of_match hr hm⟩
  rcases decode_cases w with ⟨-, hd⟩ | ⟨_, -, -, hd⟩ | ⟨r, hr, hm, hd⟩
  · cases hd.symm.trans h
  · cases hd.symm.trans h
  · exact ⟨r, hr, hm, Except.ok.inj (hd.symm.trans h)⟩

/-- A word that is no command raises its decode error (spec 60 R171). -/
theorem Machine.runWord_of_decode_error {w : Word} {e : DecodeError} (h : decode w = .error e)
    (s : Machine.State) : Machine.runWord w s = .next (s.raise (Machine.decodeStatus e)) := by
  simp only [Machine.runWord, h]

/-! ### Settled -/

/-- Settles O1: the fields of a command's word are the command's own, and the decoder makes of those
that command. -/
theorem decodeOfEncodeIsIdentity : Obligations.DecodeOfEncodeIsIdentity := by
  unfold Obligations.DecodeOfEncodeIsIdentity
  intro i
  calc decode (encode i) = decodeFields i.fields := congrArg decodeFields (fields_ofWord_toWord _)
    _ = .ok i := Laws.Encoding.all i

/-- Settles O2: the row that matches the word makes a command with the fields of the word. -/
theorem encodeOfDecodeIsIdentity : Obligations.EncodeOfDecodeIsIdentity := by
  unfold Obligations.EncodeOfDecodeIsIdentity
  intro w i h
  obtain ⟨r, hr, hm, rfl⟩ := (decode_eq_ok_iff w i).1 h
  obtain ⟨hop, hz⟩ := (and_mask_eq_pattern_iff r w).1 hm
  calc encode (r.build (Fields.ofWord w)) = (Fields.ofWord w).toWord :=
        congrArg Fields.toWord (fields_build_of_mem hr hop hz)
    _ = w := fields_toWord_ofWord w

/-- Settles O3: the decoder's two checks are the row's mask and match, and the two columns compute to
those of R74. -/
theorem decodeFollowsMatchAndMask : Obligations.DecodeFollowsMatchAndMask := by
  unfold Obligations.DecodeFollowsMatchAndMask
  exact ⟨decode_eq_ok_iff,
    fun w s r hr hop hm => Machine.runWord_of_decode_error (decode_of_mismatch hr hop hm) s, rfl⟩

/-- Settles O4: the condition of each of the three outcomes, and rows with different opcodes match no
common word. -/
theorem decodeIsTotalInThreeWays : Obligations.DecodeIsTotalInThreeWays := by
  unfold Obligations.DecodeIsTotalInThreeWays
  refine ⟨decode_eq_illegal_iff, decode_eq_rsvd_iff, fun w => ⟨?_, ?_⟩,
    opcodeTable_pairwise_disjoint⟩
  · rintro ⟨i, hi⟩
    obtain ⟨r, hr, hm, -⟩ := (decode_eq_ok_iff w i).1 hi
    exact ⟨r, hr, hm⟩
  · rintro ⟨r, hr, hm⟩
    exact ⟨_, decode_of_match hr hm⟩

/-- Settles O5, by running the decoder on each word of R86 and laying out the bytes of R62. -/
theorem workedEncodingsDecode : Obligations.WorkedEncodingsDecode := by
  unfold Obligations.WorkedEncodingsDecode
  decide

/-- Settles O8: an unassigned opcode decodes to E_ILLEGAL, which the word then raises. -/
theorem unassignedOpcodesRaiseIllegal : Obligations.UnassignedOpcodesRaiseIllegal := by
  unfold Obligations.UnassignedOpcodesRaiseIllegal
  intro w s h
  exact Machine.runWord_of_decode_error (decode_of_unassigned h) s

end Sys2Proof
end

section
/-!
The operand checks of a command (spec 30 R77, R78; 60 R172): an operand names an element exactly when
it is in range, and every command checks its index, then its values, before anything else it does.
So E_INDEX and E_VALUE come from those checks and from nothing else.
-/

namespace Sys2Proof.Machine

/-! ### Operands in range -/

theorem isSome_slotIndex (c : Config) (idx : Byte) :
    (slotIndex c idx).isSome = decide (idx.toNat < c.nrot) := by
  by_cases h : idx.toNat < c.nrot
  · simp [slotIndex_some c idx h, h]
  · simp [slotIndex_none c idx (by omega), h]

theorem isSome_wheelIndex (idx : Byte) : (wheelIndex idx).isSome = decide (idx.toNat ≤ 11) := by
  by_cases h : idx.toNat ≤ 11
  · simp [wheelIndex_some idx (by omega), h]
  · simp [wheelIndex_none idx (by omega), h]

theorem isSome_logIndex (idx : Byte) : (logIndex idx).isSome = decide (idx.toNat ≤ 1) := by
  unfold logIndex
  split
  · next h => simp [h]
  · next h => simp [h]
  · next h0 h1 => exact (decide_eq_false (Nat.not_le.2 ((Nat.two_le_iff _).2 ⟨h0, h1⟩))).symm

theorem isSome_letterOperand (a : Byte) : (letterOperand a).isSome = decide (a.toNat ≤ 25) := by
  by_cases h : a.toNat ≤ 25
  · simp [letterOperand_some a (by omega), h]
  · simp [letterOperand_none a (by omega), h]

theorem isSome_rotorId (a : Byte) : (rotorId a).isSome = decide (a.toNat ≤ 7) := by
  by_cases h : a.toNat ≤ 7
  · simp [rotorId_some a (by omega), h]
  · simp [rotorId_none a (by omega), h]

theorem isSome_reflectorId (a : Byte) : (reflectorId a).isSome = decide (a.toNat ≤ 2) := by
  by_cases h : a.toNat ≤ 2
  · simp [reflectorId_some a (by omega), h]
  · simp [reflectorId_none a (by omega), h]

theorem isSome_bitOperand (a : Byte) : (bitOperand a).isSome = decide (a.toNat ≤ 1) := by
  by_cases h : a.toNat ≤ 1
  · simp [bitOperand_some a (by omega), h]
  · simp [bitOperand_none a (by omega), h]

theorem isSome_codeOperand (a : Byte) : (codeOperand a).isSome = decide (a.toNat ≤ 31) := by
  by_cases h : a.toNat ≤ 31
  · simp [codeOperand, show a.toNat < 32 by omega, h]
  · simp [codeOperand, show ¬ a.toNat < 32 by omega, h]

/-- The size of the wheel an index names is that wheel's size. -/
theorem sizeAt_of_wheelIndex {c : Config} {idx : Byte} {w : WheelIx} (h : wheelIndex idx = some w) :
    c.sizeAt idx = c.wheelSizes[w] := by
  unfold wheelIndex at h
  split at h
  · next hlt =>
    obtain rfl := Option.some.inj h
    simp [Config.sizeAt, List.getD_eq_getElem?_getD, hlt]
  · cases h

theorem isSome_wheelPosition {c : Config} {idx : Byte} {w : WheelIx} (hw : wheelIndex idx = some w)
    (a : Byte) : (wheelPosition c w a).isSome = decide (a.toNat < c.sizeAt idx) := by
  rw [sizeAt_of_wheelIndex hw]
  unfold wheelPosition
  split_ifs with h
  · exact (decide_eq_true h).symm
  · exact (decide_eq_false h).symm

theorem val_of_letterOperand {a : Byte} {x : Letter} (h : letterOperand a = some x) :
    x.val = a.toNat := by
  unfold letterOperand at h
  split at h
  · exact Option.some.inj h ▸ rfl
  · cases h

/-- Two letter operands name one letter exactly when they are one byte. -/
theorem letterOperand_inj {a b : Byte} {x y : Letter} (hx : letterOperand a = some x)
    (hy : letterOperand b = some y) : x = y ↔ a = b := by
  rw [Fin.ext_iff, val_of_letterOperand hx, val_of_letterOperand hy, BitVec.toNat_inj]

/-- The operands of E_REMPR are in range exactly when both name letters. -/
theorem valueLegal_eRempr_iff (c : Config) (a b : Byte) : (Instr.eRempr a b).valueLegal c = true ↔
    ∃ x y, letterOperand a = some x ∧ letterOperand b = some y := by
  simp only [Instr.valueLegal, ← isSome_letterOperand, Bool.and_eq_true, Option.isSome_iff_exists,
    exists_and_left, exists_and_right]

/-- The operands of E_ADDPR are legal when they name two different letters. -/
theorem valueLegal_eAddpr {a b : Byte} {x y : Letter} (c : Config) (hx : letterOperand a = some x)
    (hy : letterOperand b = some y) : (Instr.eAddpr a b).valueLegal c = decide (x ≠ y) := by
  have hpair : (Instr.eRempr a b).valueLegal c = true :=
    (valueLegal_eRempr_iff c a b).2 ⟨x, y, hx, hy⟩
  calc (Instr.eAddpr a b).valueLegal c = ((Instr.eRempr a b).valueLegal c && a != b) := rfl
    _ = decide (x ≠ y) := by simp [hpair, letterOperand_inj hx hy, bne, beq_eq_decide]

/-! ### The checks of every command -/

/-- `CommandChecks s i r`: the answer `r` of the command `i` at `s` is what its operand checks leave
of it, the index before the values (spec 60 R172). An error of a command whose operands are all legal
is none of theirs. -/
inductive CommandChecks (s : State) (i : Instr) : Answer → Prop
  | badIndex (hi : i.indexLegal s.cfg = false) : CommandChecks s i (.next (s.raise .index))
  | badValue (hi : i.indexLegal s.cfg = true) (hv : i.valueLegal s.cfg = false) :
      CommandChecks s i (.next (s.raise .value))
  | raises {e : ErrorStatus} (hi : i.indexLegal s.cfg = true) (hv : i.valueLegal s.cfg = true)
      (he : e ≠ .index ∧ e ≠ .value) : CommandChecks s i (.next (s.raise e))
  | responds {u : State} {d : Data} (hi : i.indexLegal s.cfg = true)
      (hv : i.valueLegal s.cfg = true) : CommandChecks s i (.next (u.respond d))
  | faults {f : Fault} (hi : i.indexLegal s.cfg = true) (hv : i.valueLegal s.cfg = true) :
      CommandChecks s i (.fault f)

/-- A check is passed when its operand names something. -/
theorem check_of_some {α : Type} {o : Option α} {legal : Bool} (ho : o.isSome = legal) {x : α}
    (h : o = some x) : legal = true := by rw [← ho, h, Option.isSome_some]

/-- A check is failed when its operand names nothing. -/
theorem check_of_none {α : Type} {o : Option α} {legal : Bool} (ho : o.isSome = legal)
    (h : o = none) : legal = false := by rw [← ho, h, Option.isSome_none]

theorem execInfo_checks (idx : Byte) (s : State) : CommandChecks s (.info idx) (execInfo idx s) := by
  unfold execInfo
  split
  · next h => exact .responds (by simp [Instr.indexLegal, h]) rfl
  · next h => exact .responds (by simp [Instr.indexLegal, h]) rfl
  · next h0 h1 =>
    exact .badIndex (decide_eq_false (Nat.not_le.2 ((Nat.two_le_iff _).2 ⟨h0, h1⟩)))

theorem execEAddpr_checks (a b : Byte) (s : State) :
    CommandChecks s (.eAddpr a b) (execEAddpr a b s) := by
  unfold execEAddpr
  split
  · next x y hx hy =>
    have hv := valueLegal_eAddpr s.cfg hx hy
    split_ifs with hxy
    · exact .badValue rfl (hv.trans (decide_eq_false (not_not.2 hxy)))
    · exact .responds rfl (hv.trans (decide_eq_true hxy))
    · exact .responds rfl (hv.trans (decide_eq_true hxy))
  · next hno =>
    have hpair : (Instr.eRempr a b).valueLegal s.cfg = false := Bool.eq_false_iff.2 fun hv =>
      let ⟨x, y, hx, hy⟩ := (valueLegal_eRempr_iff s.cfg a b).1 hv
      hno x y hx hy
    exact .badValue rfl (congrArg (· && a != b) hpair)

theorem execERempr_checks (a b : Byte) (s : State) :
    CommandChecks s (.eRempr a b) (execERempr a b s) := by
  unfold execERempr
  split
  · next x y hx hy =>
    have hv := (valueLegal_eRempr_iff s.cfg a b).2 ⟨x, y, hx, hy⟩
    split_ifs
    · exact .responds rfl hv
    · exact .responds rfl hv
  · next hno =>
    exact .badValue rfl <| Bool.eq_false_iff.2 fun hv =>
      let ⟨x, y, hx, hy⟩ := (valueLegal_eRempr_iff s.cfg a b).1 hv
      hno x y hx hy

/-- An append of L_PROC has no operand to check; the only error it raises is E_LOGFULL. -/
theorem logged_checks {s : State} {a : Byte} (p c : Byte) (after : State → State) (d : Data) :
    CommandChecks s (.lProc a) (s.logged p c after d) := by
  rcases logged_cases s p c after d with ⟨-, he⟩ | ⟨-, he⟩ | ⟨-, he⟩ <;> rw [he]
  · exact .raises rfl rfl ⟨nofun, nofun⟩
  · exact .responds rfl rfl
  · exact .faults rfl rfl

theorem execLLogrd_checks (idx : Byte) (n : Data) (s : State) :
    CommandChecks s (.lLogrd idx n) (execLLogrd idx n s) := by
  unfold execLLogrd
  split
  · next h => exact .badIndex (check_of_none (isSome_logIndex idx) h)
  · next h =>
    have hi := check_of_some (isSome_logIndex idx) h
    split
    · exact .raises hi rfl ⟨nofun, nofun⟩
    · split
      · exact .faults hi rfl
      · exact .responds hi rfl

/-- Every command checks its index, then its values, before anything else. -/
theorem exec_checks (i : Instr) (s : State) : CommandChecks s i (exec i s) := by
  cases i with
  | nop => exact .responds rfl rfl
  | geterr => exact .responds rfl rfl
  | clrerr => exact .responds rfl rfl
  | info idx => exact execInfo_checks idx s
  | eEnter a =>
    simp only [exec, execEEnter]
    split
    · exact .responds rfl rfl
    · split
      · exact .responds rfl rfl
      · exact .raises rfl rfl ⟨nofun, nofun⟩
  | eXform a =>
    simp only [exec, execEXform]
    split
    · exact .responds rfl rfl
    · split
      · exact .responds rfl rfl
      · exact .raises rfl rfl ⟨nofun, nofun⟩
  | eSetrot idx a =>
    have hi := isSome_slotIndex s.cfg idx
    simp only [exec, execESetrot]
    split
    · next hn => exact .badIndex (check_of_none hi hn)
    · next hn hk => exact .badValue (check_of_some hi hn) (check_of_none (isSome_rotorId a) hk)
    · next hn hk => exact .responds (check_of_some hi hn) (check_of_some (isSome_rotorId a) hk)
  | eGetrot idx =>
    have hi := isSome_slotIndex s.cfg idx
    simp only [exec, execEGetrot]
    split
    · next hn => exact .badIndex (check_of_none hi hn)
    · next hn => exact .responds (check_of_some hi hn) rfl
  | eSetpos idx a =>
    have hi := isSome_slotIndex s.cfg idx
    simp only [exec, execESetpos]
    split
    · next hn => exact .badIndex (check_of_none hi hn)
    · next hn hp =>
      exact .badValue (check_of_some hi hn) (check_of_none (isSome_letterOperand a) hp)
    · next hn hp =>
      exact .responds (check_of_some hi hn) (check_of_some (isSome_letterOperand a) hp)
  | eGetpos idx =>
    have hi := isSome_slotIndex s.cfg idx
    simp only [exec, execEGetpos]
    split
    · next hn => exact .badIndex (check_of_none hi hn)
    · next hn => exact .responds (check_of_some hi hn) rfl
  | eSetlat idx a =>
    have hi := isSome_slotIndex s.cfg idx
    simp only [exec, execESetlat]
    split
    · next hn => exact .badIndex (check_of_none hi hn)
    · next hn hv =>
      exact .badValue (check_of_some hi hn) (check_of_none (isSome_bitOperand a) hv)
    · next hn hv =>
      exact .responds (check_of_some hi hn) (check_of_some (isSome_bitOperand a) hv)
  | eGetlat idx =>
    have hi := isSome_slotIndex s.cfg idx
    simp only [exec, execEGetlat]
    split
    · next hn => exact .badIndex (check_of_none hi hn)
    · next hn => exact .responds (check_of_some hi hn) rfl
  | eSetref a =>
    simp only [exec, execESetref]
    split
    · next hk => exact .badValue rfl (check_of_none (isSome_reflectorId a) hk)
    · next hk => exact .responds rfl (check_of_some (isSome_reflectorId a) hk)
  | eGetref => exact .responds rfl rfl
  | eAddpr a b => exact execEAddpr_checks a b s
  | eRempr a b => exact execERempr_checks a b s
  | eGetplg a =>
    simp only [exec, execEGetplg]
    split
    · next hx => exact .badValue rfl (check_of_none (isSome_letterOperand a) hx)
    · next hx => exact .responds rfl (check_of_some (isSome_letterOperand a) hx)
  | lProc a =>
    simp only [exec, execLProc]
    split
    · exact logged_checks _ _ _ _
    · exact .responds rfl rfl
    · exact logged_checks _ _ _ _
  | lXform a =>
    simp only [exec, execLXform]
    split <;> exact .responds rfl rfl
  | lSetpos idx a =>
    have hi := isSome_wheelIndex idx
    simp only [exec, execLSetpos]
    split
    · next hw => exact .badIndex (check_of_none hi hw)
    · next hw =>
      have hv := isSome_wheelPosition (c := s.cfg) hw a
      split
      · next hp => exact .badValue (check_of_some hi hw) (check_of_none hv hp)
      · next hp => exact .responds (check_of_some hi hw) (check_of_some hv hp)
  | lGetpos idx =>
    have hi := isSome_wheelIndex idx
    simp only [exec, execLGetpos]
    split
    · next hw => exact .badIndex (check_of_none hi hw)
    · next hw => exact .responds (check_of_some hi hw) rfl
  | lSetpin idx a =>
    have hi := isSome_wheelIndex idx
    simp only [exec, execLSetpin]
    split
    · next hw => exact .badIndex (check_of_none hi hw)
    · next hw hv =>
      exact .badValue (check_of_some hi hw) (check_of_none (isSome_bitOperand a) hv)
    · next hw hv =>
      exact .responds (check_of_some hi hw) (check_of_some (isSome_bitOperand a) hv)
  | lGetpin idx =>
    have hi := isSome_wheelIndex idx
    simp only [exec, execLGetpin]
    split
    · next hw => exact .badIndex (check_of_none hi hw)
    · next hw => exact .responds (check_of_some hi hw) rfl
  | lLoglen => exact .responds rfl rfl
  | lLogrd idx n => exact execLLogrd_checks idx n s
  | lLogtrn n =>
    simp only [exec, execLLogtrn]
    split
    · exact .raises rfl rfl ⟨nofun, nofun⟩
    · exact .responds rfl rfl
  | bEnc a =>
    simp only [exec, execBEnc]
    split <;> exact .responds rfl rfl
  | bDec a =>
    simp only [exec, execBDec]
    split
    · next hk => exact .badValue rfl (check_of_none (isSome_codeOperand a) hk)
    · next hk => exact .responds rfl (check_of_some (isSome_codeOperand a) hk)

/-! ### Which response is whose -/

theorem errorResponse_injective : Function.Injective errorResponse := by
  intro e e' h
  have hcode : e.code = e'.code := by simpa using congrArg responseStatus h
  revert hcode
  cases e <;> cases e' <;> decide

theorem okResponse_ne_errorResponse (d : Data) (e : ErrorStatus) :
    okResponse d ≠ errorResponse e := fun h =>
  errorCode_ne_zero e (by simpa using (congrArg responseStatus h).symm)

/-- The state a raised error leaves carries that error's response and no other's. -/
theorem raise_rsp_eq_iff (s : State) (e e' : ErrorStatus) :
    (s.raise e).rsp = some (errorResponse e') ↔ e = e' := by
  simp [errorResponse_injective.eq_iff]

theorem respond_rsp_ne_error (s : State) (d : Data) (e : ErrorStatus) :
    (s.respond d).rsp ≠ some (errorResponse e) := by
  simpa using okResponse_ne_errorResponse d e

/-! ### What the checks leave -/

section
variable {s t : State} {i : Instr} {r : Answer}

theorem CommandChecks.eq_raise_index (h : CommandChecks s i r) (hi : i.indexLegal s.cfg = false) :
    r = .next (s.raise .index) := by
  cases h with
  | badIndex => rfl
  | badValue hi' | raises hi' | responds hi' | faults hi' => cases hi.symm.trans hi'

theorem CommandChecks.eq_raise_value (h : CommandChecks s i r) (hi : i.indexLegal s.cfg = true)
    (hv : i.valueLegal s.cfg = false) : r = .next (s.raise .value) := by
  cases h with
  | badIndex hi' => cases hi.symm.trans hi'
  | badValue => rfl
  | raises _ hv' | responds _ hv' | faults _ hv' => cases hv.symm.trans hv'

theorem CommandChecks.rsp_ne_index (h : CommandChecks s i (.next t))
    (hi : i.indexLegal s.cfg = true) : t.rsp ≠ some (errorResponse .index) := by
  cases h with
  | badIndex hi' => cases hi.symm.trans hi'
  | badValue => exact (raise_rsp_eq_iff s .value .index).not.2 nofun
  | raises _ _ he => exact (raise_rsp_eq_iff s _ .index).not.2 he.1
  | responds => exact respond_rsp_ne_error _ _ .index

theorem CommandChecks.rsp_ne_value (h : CommandChecks s i (.next t))
    (hv : i.valueLegal s.cfg = true) : t.rsp ≠ some (errorResponse .value) := by
  cases h with
  | badIndex => exact (raise_rsp_eq_iff s .index .value).not.2 nofun
  | badValue _ hv' => cases hv.symm.trans hv'
  | raises _ _ he => exact (raise_rsp_eq_iff s _ .value).not.2 he.2
  | responds => exact respond_rsp_ne_error _ _ .value

end

/-! ### Settled -/

/-- Every next state of a command word is a raised error or a response (spec 30 R72). -/
theorem runWord_next_cases {w : Word} {s t : State} (h : runWord w s = .next t) :
    (∃ e, t = s.raise e) ∨ ∃ u d, t = State.respond u d := by
  unfold runWord at h
  split at h
  · exact .inl ⟨_, (Host.Outcome.next.inj h).symm⟩
  · exact (exec_next_cases h).imp_right fun ⟨u, d, _, hu⟩ => ⟨u, d, hu⟩

/-- Settles O6: a raised error and a response are both legal, and `respond` writes the response word
of status 0 alone. -/
theorem everyCommandAnswersOneLegalResponse : Obligations.EveryCommandAnswersOneLegalResponse := by
  unfold Obligations.EveryCommandAnswersOneLegalResponse
  refine ⟨fun w s t h => ?_, fun s d => rfl⟩
  obtain ⟨e, rfl⟩ | ⟨u, d, rfl⟩ := runWord_next_cases h
  · exact ⟨_, rfl, legalResponse_errorResponse e⟩
  · exact ⟨_, rfl, legalResponse_okResponse d⟩

/-- Settles O9: `exec_checks` with the index illegal leaves the raised E_INDEX alone, and with it
legal leaves other errors and responses, none of which has the response of E_INDEX. -/
theorem indexOutOfRangeRaisesIndex : Obligations.IndexOutOfRangeRaisesIndex := by
  unfold Obligations.IndexOutOfRangeRaisesIndex
  intro i s
  have hchecks := exec_checks i s
  refine ⟨fun hbad => ?_, fun hi t ht => ?_⟩
  · exact hchecks.eq_raise_index hbad
  · rw [ht] at hchecks
    exact hchecks.rsp_ne_index hi

/-- Settles O10: `exec_checks` with the index legal and a value illegal leaves the raised E_VALUE alone,
and with both legal leaves answers that do not have its response. -/
theorem valueOutOfRangeRaisesValue : Obligations.ValueOutOfRangeRaisesValue := by
  unfold Obligations.ValueOutOfRangeRaisesValue
  intro i s hi
  have hchecks := exec_checks i s
  refine ⟨fun hbad => ?_, fun hv t ht => ?_⟩
  · exact hchecks.eq_raise_value hi hbad
  · rw [ht] at hchecks
    exact hchecks.rsp_ne_value hv

end Sys2Proof.Machine
end

section
/-!
The set-up commands of the Enigma unit (spec 40 R110 to R117) and the plugboard commands (R120 to
R123). What an out-of-range operand raises follows from `exec_checks`; what stands here is which
element a legal operand names, and with it one equation per outcome.
-/

namespace Sys2Proof

/-! ### Encodings -/

/-- The word of a command whose only operand is its index ends in sixteen zero bits. -/
theorem Fields.toWord_of_idx (op idx : Byte) :
    Fields.toWord ⟨op, idx, 0, 0⟩ = op ++ idx ++ 0x0000#16 :=
  (BitVec.append_assoc (x₁ := op ++ idx) (x₂ := 0#8) (x₃ := 0#8)).trans rfl

namespace Machine

/-! ### What an operand in range names -/

theorem letterOperand_of_toNat_eq {a : Byte} {x : Letter} (h : a.toNat = x.val) :
    letterOperand a = some x :=
  (letterOperand_some a (h ▸ x.isLt)).trans (congrArg some (Fin.ext h))

theorem rotorId_of_toNat_eq {a : Byte} {k : Fin 8} (h : a.toNat = k.val) : rotorId a = some k :=
  (rotorId_some a (h ▸ k.isLt)).trans (congrArg some (Fin.ext h))

theorem reflectorId_of_toNat_eq {a : Byte} {k : Fin 3} (h : a.toNat = k.val) :
    reflectorId a = some k :=
  (reflectorId_some a (h ▸ k.isLt)).trans (congrArg some (Fin.ext h))

theorem bitOperand_of_toNat_eq {a : Byte} {v : Bool} (h : a.toNat = v.toNat) :
    bitOperand a = some v := by
  cases v <;> simp [bitOperand_some, h]

theorem slot_of_getElem? {s : State} {n : Nat} {r : Slot} (h : s.slots[n]? = some r) :
    s.slot n = r := by
  simp [State.slot, h]

/-! ### What an operand out of range raises -/

section
variable {s : State} {i : Instr}

theorem exec_of_illegal_index (hi : i.indexLegal s.cfg = false) :
    exec i s = .next (s.raise .index) :=
  (exec_checks i s).eq_raise_index hi

theorem exec_of_illegal_value (hi : i.indexLegal s.cfg = true) (hv : i.valueLegal s.cfg = false) :
    exec i s = .next (s.raise .value) :=
  (exec_checks i s).eq_raise_value hi hv

end

/-! ### Slots -/

/-- Settles O24: the two failing checks, and the write of a slot that both operands name. -/
theorem setrotFitsAFreshRotor : Obligations.SetrotFitsAFreshRotor := by
  unfold Obligations.SetrotFitsAFreshRotor
  refine fun s idx a => ⟨rfl, fun hidx => ?_, fun hidx ha => ?_, fun k hidx hk => ?_⟩
  · exact exec_of_illegal_index (decide_eq_false hidx.not_gt)
  · exact exec_of_illegal_value (decide_eq_true hidx) (decide_eq_false ha.not_ge)
  · simp only [exec, execESetrot, slotIndex_some s.cfg idx hidx, rotorId_of_toNat_eq hk]
    rfl

/-- Settles O25: the failing checks, and the write of one field of the slot that the index names. -/
theorem setposAndSetlatWriteOneField : Obligations.SetposAndSetlatWriteOneField := by
  unfold Obligations.SetposAndSetlatWriteOneField
  refine fun s idx a => ⟨rfl, rfl, fun hidx => ⟨?_, ?_⟩, fun hidx ha => ?_, fun hidx ha => ?_,
    fun r p hidx hr hp => ?_, fun r v hidx hr hv => ?_⟩
  · exact exec_of_illegal_index (decide_eq_false hidx.not_gt)
  · exact exec_of_illegal_index (decide_eq_false hidx.not_gt)
  · exact exec_of_illegal_value (decide_eq_true hidx) (decide_eq_false ha.not_ge)
  · exact exec_of_illegal_value (decide_eq_true hidx) (decide_eq_false ha.not_ge)
  · simp only [exec, execESetpos, slotIndex_some s.cfg idx hidx, letterOperand_of_toNat_eq hp,
      slot_of_getElem? hr]
    rfl
  · simp only [exec, execESetlat, slotIndex_some s.cfg idx hidx, bitOperand_of_toNat_eq hv,
      slot_of_getElem? hr]
    rfl

/-- One bit, zero-extended to the data of a response. -/
theorem setWidth_ofBool (b : Bool) : (BitVec.ofBool b).setWidth 16 = if b then 1#16 else 0#16 := by
  cases b <;> rfl

/-- Settles O26: the failing index check of each read, and the field of the slot that a legal index
names. -/
theorem slotReadsAnswerTheirField : Obligations.SlotReadsAnswerTheirField := by
  unfold Obligations.SlotReadsAnswerTheirField
  refine fun s idx => ⟨Fields.toWord_of_idx _ idx, Fields.toWord_of_idx _ idx,
    Fields.toWord_of_idx _ idx, fun hidx => ?_, fun r hidx hr => ?_⟩
  · have hbad : decide (idx.toNat < s.cfg.nrot) = false := decide_eq_false hidx.not_gt
    exact ⟨exec_of_illegal_index hbad, exec_of_illegal_index hbad, exec_of_illegal_index hbad⟩
  · have hn := slotIndex_some s.cfg idx hidx
    have hslot := slot_of_getElem? hr
    refine ⟨?_, ?_, ?_⟩
    · simp only [exec, execEGetrot, hn, hslot]
      rfl
    · simp only [exec, execEGetpos, hn, hslot]
    · simp only [exec, execEGetlat, hn, hslot, setWidth_ofBool]

/-! ### The reflector -/

/-- Settles O27: the failing check and the write of E_SETREF, and the two answers of E_GETREF. -/
theorem reflectorIsSelectedAndRead : Obligations.ReflectorIsSelectedAndRead := by
  unfold Obligations.ReflectorIsSelectedAndRead
  refine fun s => ⟨fun a => congrArg (· ++ a) (show 0x18#8 ++ 0#8 ++ 0#8 = 0x180000#24 from rfl),
    rfl, fun a ha => ?_, fun a k hk => ?_, fun hunfit => ?_, fun hfit => ?_⟩
  · exact exec_of_illegal_value rfl (decide_eq_false ha.not_ge)
  · simp only [exec, execESetref, reflectorId_of_toNat_eq hk]
    rfl
  · simp only [exec, execEGetref, hunfit, Bool.false_eq_true, if_false]
  · simp only [exec, execEGetref, hfit, if_true]

/-! ### The plugboard -/

/-- Settles O28: the failing check, and for two letters the two answers by whether either has a
partner. -/
theorem addprAddsAPairOnce : Obligations.AddprAddsAPairOnce := by
  unfold Obligations.AddprAddsAPairOnce
  refine fun s a b => ⟨congrArg (· ++ b ++ a) (show 0x1A#8 ++ 0#8 = 0x1A00#16 from rfl),
    fun hbad => exec_of_illegal_value rfl ?_, fun x y hx hy hne => ?_⟩
  · simp only [Instr.valueLegal, Bool.and_eq_false_iff, decide_eq_false_iff_not, Nat.not_le,
      bne_eq_false_iff_eq, or_assoc]
    exact hbad
  · have hexec : exec (.eAddpr a b) s =
        if s.plug[x] ≠ x ∨ s.plug[y] ≠ y then .next (s.respond 0)
        else .next (({ s with plug := (s.plug.set x y).set y x }).respond 1) := by
      simp only [exec, execEAddpr, letterOperand_of_toNat_eq hx, letterOperand_of_toNat_eq hy,
        if_neg hne]
      rfl
    exact ⟨fun hpaired => hexec.trans (if_pos hpaired), fun hfx hfy =>
      hexec.trans (if_neg (not_or.2 ⟨not_not.2 hfx, not_not.2 hfy⟩))⟩

/-- Settles O29: the failing check, and for two letters the two answers by whether they are a
registered pair. -/
theorem remprRemovesARegisteredPair : Obligations.RemprRemovesARegisteredPair := by
  unfold Obligations.RemprRemovesARegisteredPair
  refine fun s a b => ⟨congrArg (· ++ b ++ a) (show 0x1B#8 ++ 0#8 = 0x1B00#16 from rfl),
    fun hbad => exec_of_illegal_value rfl ?_, fun x y hx hy => ?_⟩
  · simp only [Instr.valueLegal, Bool.and_eq_false_iff, decide_eq_false_iff_not, Nat.not_le]
    exact hbad
  · have hexec : exec (.eRempr a b) s =
        if x ≠ y ∧ s.plug[x] = y then
          .next (({ s with plug := (s.plug.set x x).set y y }).respond 1)
        else .next (s.respond 0) := by
      simp only [exec, execERempr, letterOperand_of_toNat_eq hx, letterOperand_of_toNat_eq hy]
      rfl
    exact ⟨fun hne hxy => hexec.trans (if_pos ⟨hne, hxy⟩), fun hno =>
      hexec.trans (if_neg fun ⟨hne, hxy⟩ => hno.elim hne fun hxy' => hxy' hxy)⟩

theorem exec_eGetplg {a : Byte} {x : Letter} (s : State) (hx : a.toNat = x.val) :
    exec (.eGetplg a) s = .next (s.respond (BitVec.ofNat 16 s.plug[x].val)) := by
  simp only [exec, execEGetplg, letterOperand_of_toNat_eq hx]
  rfl

theorem toNat_ofNat_letter (x : Letter) : (BitVec.ofNat 8 x.val).toNat = x.val :=
  Nat.mod_eq_of_lt (x.isLt.trans (by decide))

/-- Settles O30: the failing check, and the partner of the letter the operand names. -/
theorem getplgReadsThePartner : Obligations.GetplgReadsThePartner := by
  unfold Obligations.GetplgReadsThePartner
  refine fun s a => ⟨congrArg (· ++ a) (show 0x1C#8 ++ 0#8 ++ 0#8 = 0x1C0000#24 from rfl),
    fun ha => exec_of_illegal_value rfl (decide_eq_false ha.not_ge), fun x hx => exec_eGetplg s hx,
    fun x hinv => ?_⟩
  rw [exec_eGetplg s (toNat_ofNat_letter s.plug[x]), hinv x]

/-- The writes of every command keep the plugboard an involution. -/
theorem CommandWrites.partner_involutive {i : Instr} {s u : State} (hu : CommandWrites s i u)
    (h : s.partner.Involutive) : u.partner.Involutive := by
  cases hu with
  | pairAdded hx hy hne hfx hfy => exact partner_involutive_addPair h hfx hfy
  | pairRemoved hx hy hne hxy => exact partner_involutive_removePair h hxy
  | symbolLogged => rw [stepWheels_frame]; exact h
  | _ => exact h

/-- The plugboard changes by the writes of E_ADDPR and E_REMPR alone. -/
theorem CommandWrites.plugboard {i : Instr} {s u : State} (hu : CommandWrites s i u) :
    u.plug = s.plug ∨ (∃ a b, i = .eAddpr a b) ∨ ∃ a b, i = .eRempr a b := by
  cases hu with
  | pairAdded => exact .inr (.inl ⟨_, _, rfl⟩)
  | pairRemoved => exact .inr (.inr ⟨_, _, rfl⟩)
  | symbolLogged => rw [stepWheels_frame]; exact .inl rfl
  | _ => exact .inl rfl

/-- Settles O31: reset leaves every letter its own partner, and an error status and a response leave
the plugboard that the writes of the command leave. -/
theorem plugboardStaysAnInvolution : Obligations.PlugboardStaysAnInvolution := by
  unfold Obligations.PlugboardStaysAnInvolution
  refine ⟨fun c x => ?_, fun i s t hinv h => ?_, fun i s t h hne => ?_⟩
  · show (State.resetFor c).partner ((State.resetFor c).partner x) = x
    rw [resetFor_partner, resetFor_partner]
  · obtain ⟨e, rfl⟩ | ⟨u, d, hu, rfl⟩ := exec_next_cases h
    · exact hinv
    · exact hu.partner_involutive hinv
  · obtain ⟨e, rfl⟩ | ⟨u, d, hu, rfl⟩ := exec_next_cases h
    · exact absurd rfl hne
    · exact hu.plugboard.resolve_left hne

end Machine

end Sys2Proof
end

section
/-!
Stepping (spec 40 R92 to R95). The indexed algorithm `stepAt` is unfolded once, into two conditional
calls of the next slot and an advance (`stepAt_succ`). On the slots from any index on those do what
`stepChain` does (`stepAt_agrees`); each call is one advance (`Advances`); and the calls form a
binary tree (`StepCalls`), which bounds them.
-/

namespace Sys2Proof.Machine

variable (c : Config)

/-! ### One call of the indexed algorithm -/

/-- The slot at an index of a chain, unfitted beyond the last. -/
def slotAt (l : List Slot) (i : Nat) : Slot := l.getD i Slot.unfitted

def setLatAt (l : List Slot) (i : Nat) (v : Bool) : List Slot :=
  l.set i { slotAt l i with lat := v }

def advanceAt (l : List Slot) (i : Nat) : List Slot := l.set i (slotAt l i).advance

/-- What steps 1 and 2 of `Step(i)` do (spec 40 R92), on a chain of `m` slots: where slot `i` has a
successor and the condition `b` holds, call `Step(i+1)` and then write the latch of slot `k`. -/
def callNext (n i m : Nat) (b : Bool) (k : Nat) (v : Bool) (l : List Slot) :
    List Nat × List Slot :=
  if decide (i + 1 < m) && b then
    ((stepAt c n (i + 1) l).1, setLatAt (stepAt c n (i + 1) l).2 k v) else ([], l)

/-- Step 1 of `Step(i)`: consume the latch of the successor. -/
def consumeNext (n i : Nat) (l : List Slot) : List Nat × List Slot :=
  callNext c n i l.length ((slotAt l (i + 1)).lat && (slotAt l i).lat) (i + 1) false l

/-- Step 2 of `Step(i)`: the notch test. -/
def notchNext (n i m : Nat) (l : List Slot) : List Nat × List Slot :=
  callNext c n i m (atNotch c (slotAt l i)) i true l

theorem stepAt_succ (n i : Nat) (l : List Slot) : stepAt c (n + 1) i l =
    let p := consumeNext c n i l
    let q := notchNext c n i l.length p.2
    (i :: (p.1 ++ q.1), advanceAt q.2 i) := by
  simp only [stepAt, Bool.and_assoc]
  rfl

/-! ### The indexed algorithm on the slots from an index on -/

section
variable (pre : List Slot) (r : Slot) (rest : List Slot)

@[simp] theorem slotAt_append_length : slotAt (pre ++ r :: rest) pre.length = r := by
  simp [slotAt]

@[simp] theorem slotAt_append_length_succ_lat :
    (slotAt (pre ++ r :: rest) (pre.length + 1)).lat = firstLatch rest := by
  cases rest <;> simp [slotAt, firstLatch, Slot.unfitted]

@[simp] theorem advanceAt_append_length :
    advanceAt (pre ++ r :: rest) pre.length = pre ++ r.advance :: rest := by
  simp [advanceAt]

theorem setLatAt_append_length (v : Bool) :
    setLatAt (pre ++ r :: rest) pre.length v = pre ++ { r with lat := v } :: rest := by
  simp [setLatAt]

theorem setLatAt_append_length_succ :
    setLatAt (pre ++ r :: rest) (pre.length + 1) false = pre ++ r :: clearFirstLatch rest := by
  cases rest <;> simp [setLatAt, slotAt, clearFirstLatch]

end

/-- The slots behind the first one of a chain after step 1 of a call on that chain. -/
def consumed (n : Nat) (r : Slot) (rest : List Slot) : List Slot :=
  if firstLatch rest && r.lat then clearFirstLatch (stepChain c n rest) else rest

@[simp] theorem consumed_length (n : Nat) (r : Slot) (rest : List Slot) :
    (consumed c n r rest).length = rest.length := by
  unfold consumed
  split <;> simp

@[simp] theorem consumed_isEmpty (n : Nat) (r : Slot) (rest : List Slot) :
    (consumed c n r rest).isEmpty = rest.isEmpty := by
  rw [Bool.eq_iff_iff, List.isEmpty_iff_length_eq_zero, List.isEmpty_iff_length_eq_zero,
    consumed_length]

theorem stepChain_cons_consumed (n : Nat) (r : Slot) (rest : List Slot) :
    stepChain c (n + 1) (r :: rest) =
      if !rest.isEmpty && atNotch c r then
        { r with lat := true }.advance :: stepChain c n (consumed c n r rest)
      else r.advance :: consumed c n r rest :=
  stepChain_cons c n r rest

/-- On the slots from an index on, the indexed algorithm is the chain's. -/
def StepAgrees (n : Nat) : Prop :=
  ∀ pre l : List Slot, (stepAt c n pre.length (pre ++ l)).2 = pre ++ stepChain c n l

section
variable {c} {n : Nat} (ih : StepAgrees c n) (pre : List Slot) (r : Slot) (rest : List Slot)
include ih

theorem stepAt_append_of_agrees :
    (stepAt c n (pre.length + 1) (pre ++ r :: rest)).2 = pre ++ r :: stepChain c n rest := by
  simpa using ih (pre ++ [r]) rest

theorem consumeNext_append :
    (consumeNext c n pre.length (pre ++ r :: rest)).2 = pre ++ r :: consumed c n r rest := by
  have hlatch : (decide (pre.length + 1 < (pre ++ r :: rest).length) &&
      (firstLatch rest && r.lat)) = (firstLatch rest && r.lat) := by
    cases rest <;> simp [firstLatch]
  simp only [consumeNext, callNext, slotAt_append_length, slotAt_append_length_succ_lat, hlatch,
    stepAt_append_of_agrees ih, setLatAt_append_length_succ, consumed]
  split <;> rfl

theorem notchNext_append {m : Nat} (hm : m = pre.length + 1 + rest.length) :
    (notchNext c n pre.length m (pre ++ r :: rest)).2 =
      if !rest.isEmpty && atNotch c r then pre ++ { r with lat := true } :: stepChain c n rest
      else pre ++ r :: rest := by
  have hlast : decide (pre.length + 1 < m) = !rest.isEmpty := by
    cases rest <;> simp [hm]
  simp only [notchNext, callNext, slotAt_append_length, hlast, stepAt_append_of_agrees ih,
    setLatAt_append_length]
  split <;> rfl

end

theorem stepAt_agrees (n : Nat) : StepAgrees c n := by
  induction n with
  | zero => exact fun _ _ => rfl
  | succ n ih =>
    intro pre l
    rw [stepAt_succ]
    cases l with
    | nil => simp [consumeNext, notchNext, callNext, advanceAt, List.set_eq_of_length_le]
    | cons r rest =>
      have hlen : (pre ++ r :: rest).length = pre.length + 1 + (consumed c n r rest).length := by
        simp
        omega
      simp only [stepChain_cons_consumed, consumeNext_append ih, notchNext_append ih _ _ _ hlen,
        consumed_isEmpty]
      split <;> simp

/-- Settles O16, with no slot before the chain. -/
theorem chainStepRefinesIndexedStep : Obligations.ChainStepRefinesIndexedStep := by
  unfold Obligations.ChainStepRefinesIndexedStep
  exact fun c l => (stepAt_agrees c l.length [] l).symm

/-! ### The double step -/

section
variable {c} {r : Slot} {rest : List Slot}

theorem not_atNotch_of_not_mem (h : r.pos ∉ (c.rotors[r.id]).notches) : atNotch c r = false :=
  Bool.eq_false_iff.2 (mt List.contains_iff_mem.1 h)

/-- A step off a notch position leaves the first latch and only consumes the next. -/
theorem stepChain_of_not_notch (n : Nat) (h : r.pos ∉ (c.rotors[r.id]).notches) :
    stepChain c (n + 1) (r :: rest) = r.advance :: consumed c n r rest := by
  rw [stepChain_cons_consumed, not_atNotch_of_not_mem h, Bool.and_false]
  rfl

/-- A step from a notch position, with the latch clear, calls Step on the successor once. -/
theorem stepChain_of_notch_of_not_lat (n : Nat) (h : r.pos ∈ (c.rotors[r.id]).notches)
    (hlat : r.lat = false) (hrest : rest ≠ []) :
    stepChain c (n + 1) (r :: rest) = { r with lat := true }.advance :: stepChain c n rest := by
  have hconsumed : consumed c n r rest = rest := by simp [consumed, hlat]
  rw [stepChain_cons_consumed, atNotch_of_mem h, hconsumed]
  simp [hrest]

theorem consumed_of_latches (n : Nat) (hlat : r.lat = true) (hnext : firstLatch rest = true) :
    consumed c n r rest = clearFirstLatch (stepChain c n rest) := by
  simp [consumed, hlat, hnext]

theorem consumed_of_not_next (n : Nat) (hnext : firstLatch rest = false) :
    consumed c n r rest = rest := by
  simp [consumed, hnext]

end

/-- Settles O18: in the first step slots 0 and 1 each call their successor from a notch; in the
second slot 0 consumes slot 1's latch, and neither is at a notch. -/
theorem doubleStepAnomaly : Obligations.DoubleStepAnomaly := by
  unfold Obligations.DoubleStepAnomaly
  rintro c ⟨f0, i0, p0, _⟩ ⟨f1, i1, p1, _⟩ ⟨f2, i2, p2, _⟩ rfl rfl rfl h0 h1 h0' h1'
  have hfirst : stepChain c 3 [⟨f0, i0, p0, false⟩, ⟨f1, i1, p1, false⟩, ⟨f2, i2, p2, false⟩] =
      [⟨f0, i0, p0 + 1, true⟩, ⟨f1, i1, p1 + 1, true⟩, ⟨f2, i2, p2 + 1, false⟩] := by
    rw [stepChain_of_notch_of_not_lat 2 h0 rfl (List.cons_ne_nil _ _),
      stepChain_of_notch_of_not_lat 1 h1 rfl (List.cons_ne_nil _ _), stepChain_single]
    rfl
  refine ⟨hfirst, ?_⟩
  rw [hfirst, stepChain_of_not_notch 2 h0', consumed_of_latches 2 rfl rfl,
    stepChain_of_not_notch 1 h1', consumed_of_not_next 1 rfl]
  simp only [Slot.advance, clearFirstLatch, add_assoc]
  rfl

/-! ### Positions: a call is an advance -/

theorem slotAt_set (l : List Slot) (i j : Nat) (v : Slot) :
    slotAt (l.set i v) j = if i = j ∧ j < l.length then v else slotAt l j := by
  simp only [slotAt, List.getD_eq_getElem?_getD, List.getElem?_set]
  split_ifs <;> simp_all

theorem setLatAt_pos (l : List Slot) (i j : Nat) (v : Bool) :
    (slotAt (setLatAt l i v) j).pos = (slotAt l j).pos := by
  rw [setLatAt, slotAt_set]
  split
  · next h => rw [h.1]
  · rfl

theorem advanceAt_pos {l : List Slot} {j : Nat} (i : Nat) (hj : j < l.length) :
    (slotAt (advanceAt l i) j).pos = if i = j then (slotAt l j).pos + 1 else (slotAt l j).pos := by
  rw [advanceAt, slotAt_set]
  by_cases hij : i = j
  · subst hij
    rw [if_pos ⟨rfl, hj⟩, if_pos rfl]
    rfl
  · rw [if_neg fun h => hij h.1, if_neg hij]

/-- The calls take the chain `l` to `l'` with each slot one position on for each of its calls. -/
structure Advances (l : List Slot) (calls : List Nat) (l' : List Slot) : Prop where
  length_eq : l'.length = l.length
  pos_eq : ∀ j < l.length, (slotAt l' j).pos.val = ((slotAt l j).pos.val + calls.count j) % 26

namespace Advances

variable {l l' l'' : List Slot} {k k' : List Nat}

theorem refl (l : List Slot) : Advances l [] l :=
  ⟨rfl, fun j _ => (Nat.mod_eq_of_lt (slotAt l j).pos.isLt).symm⟩

theorem trans (h : Advances l k l') (h' : Advances l' k' l'') : Advances l (k ++ k') l'' where
  length_eq := h'.length_eq.trans h.length_eq
  pos_eq j hj := by
    rw [h'.pos_eq j (h.length_eq ▸ hj), h.pos_eq j hj, List.count_append]
    omega

theorem setLatAt (h : Advances l k l') (i : Nat) (v : Bool) : Advances l k (setLatAt l' i v) where
  length_eq := List.length_set.trans h.length_eq
  pos_eq j hj := by rw [setLatAt_pos, h.pos_eq j hj]

theorem advanceAt (h : Advances l k l') (i : Nat) : Advances l (i :: k) (advanceAt l' i) where
  length_eq := List.length_set.trans h.length_eq
  pos_eq j hj := by
    have hpos := h.pos_eq j hj
    rw [advanceAt_pos i (h.length_eq ▸ hj), List.count_cons]
    by_cases hij : i = j
    · simp only [hij, if_true, beq_self_eq_true, Fin.val_add]
      omega
    · simp only [hij, if_false, beq_iff_eq]
      omega

end Advances

section
variable {c} {n : Nat} (ih : ∀ i l, Advances l (stepAt c n i l).1 (stepAt c n i l).2)
include ih

theorem callNext_advances (i m : Nat) (b : Bool) (k : Nat) (v : Bool) (l : List Slot) :
    Advances l (callNext c n i m b k v l).1 (callNext c n i m b k v l).2 := by
  unfold callNext
  split
  · exact (ih (i + 1) l).setLatAt k v
  · exact .refl l

end

theorem stepAt_advances (n i : Nat) (l : List Slot) :
    Advances l (stepAt c n i l).1 (stepAt c n i l).2 := by
  induction n generalizing i l with
  | zero => exact .refl l
  | succ n ih =>
    rw [stepAt_succ]
    exact ((callNext_advances ih i _ _ _ _ l).trans
      (callNext_advances ih i _ _ _ _ _)).advanceAt i

/-! ### The calls: a binary tree -/

/-- `StepCalls m i calls`: the calls are those of no call, or of one call of `Step(i)`, for `i`
below `m`, which calls `Step(i+1)` at most twice (spec 40 R94). -/
inductive StepCalls (m : Nat) : Nat → List Nat → Prop
  | none {i : Nat} : StepCalls m i []
  | call {i : Nat} {k k' : List Nat} (hi : i < m) (h : StepCalls m (i + 1) k)
      (h' : StepCalls m (i + 1) k') : StepCalls m i (i :: (k ++ k'))

namespace StepCalls

variable {m i : Nat} {k : List Nat}

theorem le_and_lt_of_mem (h : StepCalls m i k) : ∀ j ∈ k, i ≤ j ∧ j < m := by
  induction h with
  | none => exact nofun
  | call hi _ _ ih ih' =>
    intro j hj
    obtain rfl | hj | hj : j = _ ∨ j ∈ _ ∨ j ∈ _ := by simpa using hj
    · exact ⟨le_rfl, hi⟩
    · exact ⟨Nat.le_of_succ_le (ih j hj).1, (ih j hj).2⟩
    · exact ⟨Nat.le_of_succ_le (ih' j hj).1, (ih' j hj).2⟩

theorem count_eq_zero_of_lt (h : StepCalls m i k) {j : Nat} (hj : j < i) : k.count j = 0 :=
  List.count_eq_zero.2 fun hmem => absurd (h.le_and_lt_of_mem j hmem).1 (Nat.not_le.2 hj)

/-- The tree has a node of `Step(i)` at its root and nowhere else. -/
theorem count_self (h : StepCalls m i k) (hne : k ≠ []) : k.count i = 1 := by
  cases h with
  | none => exact absurd rfl hne
  | call hi h h' =>
    rw [List.count_cons_self, List.count_append, h.count_eq_zero_of_lt (Nat.lt_succ_self i),
      h'.count_eq_zero_of_lt (Nat.lt_succ_self i)]

/-- The level `d` of the tree has at most `2^d` nodes. -/
theorem count_le (h : StepCalls m i k) (d : Nat) : k.count (i + d) ≤ 2 ^ d := by
  induction h generalizing d with
  | none => exact Nat.zero_le _
  | @call i k k' hi h h' ih ih' =>
    cases d with
    | zero => exact ((StepCalls.call hi h h').count_self (List.cons_ne_nil _ _)).le
    | succ d =>
      have hk : k.count (i + (d + 1)) ≤ 2 ^ d := Nat.add_right_comm i 1 d ▸ ih d
      have hk' : k'.count (i + (d + 1)) ≤ 2 ^ d := Nat.add_right_comm i 1 d ▸ ih' d
      rw [List.count_cons_of_ne (by omega), List.count_append, Nat.pow_succ]
      omega

/-- The tree has at most `m - i` levels. -/
theorem length_lt (h : StepCalls m i k) : k.length < 2 ^ (m - i) := by
  induction h with
  | none => exact Nat.two_pow_pos _
  | @call i k k' hi h h' ih ih' =>
    have hpow : 2 ^ (m - i) = 2 * 2 ^ (m - (i + 1)) := by
      rw [← Nat.pow_succ', ← Nat.succ_sub hi, Nat.succ_sub_succ]
    rw [List.length_cons, List.length_append, hpow]
    omega

end StepCalls

section
variable {c} {n m i : Nat} (ih : ∀ i l, l.length ≤ m → i < m → StepCalls m i (stepAt c n i l).1)
include ih

theorem callNext_calls {m' : Nat} (hm : m' ≤ m) {l : List Slot} (hl : l.length ≤ m) (b : Bool)
    (k : Nat) (v : Bool) : StepCalls m (i + 1) (callNext c n i m' b k v l).1 := by
  unfold callNext
  split
  · next h =>
    have hnext : i + 1 < m' := of_decide_eq_true (Bool.and_eq_true_iff.1 h).1
    exact ih (i + 1) l hl (hnext.trans_le hm)
  · exact .none

end

/-- The calls of `Step(i)`, with `m` no less than the number of slots. -/
theorem stepAt_calls {m : Nat} (n i : Nat) (l : List Slot) (hl : l.length ≤ m) (hi : i < m) :
    StepCalls m i (stepAt c n i l).1 := by
  induction n generalizing i l with
  | zero => exact .none
  | succ n ih =>
    have hlen : (consumeNext c n i l).2.length = l.length :=
      (callNext_advances (stepAt_advances c n) i _ _ _ _ l).length_eq
    rw [stepAt_succ]
    exact .call hi (callNext_calls ih hl hl _ _ _) (callNext_calls ih hl (hlen.trans_le hl) _ _ _)

/-- Settles O17: the calls of one step are a binary tree with slot 0 at its root and a level for
each slot, and each call advances its slot. -/
theorem slotAdvancesAreBounded : Obligations.SlotAdvancesAreBounded := by
  unfold Obligations.SlotAdvancesAreBounded
  refine ⟨fun c n i l => ?_, fun c l => ?_⟩
  · have hcalls : StepCalls (l.length + i + 1) i (stepAt c n i l).1 :=
      stepAt_calls c n i l (by omega) (by omega)
    exact ⟨fun j hj => (hcalls.le_and_lt_of_mem j hj).1, hcalls.count_le 1⟩
  · have hchain : (stepAt c l.length 0 l).2 = stepChain c l.length l :=
      stepAt_agrees c l.length [] l
    have hcalls : StepCalls l.length 0 (stepAt c l.length 0 l).1 := by
      cases l with
      | nil => exact .none
      | cons r rest => exact stepAt_calls c _ 0 _ le_rfl (Nat.succ_pos _)
    refine ⟨hchain, Nat.le_sub_one_of_lt hcalls.length_lt,
      fun j hj => (hcalls.le_and_lt_of_mem j hj).2, fun hne => hcalls.count_self ?_,
      fun i hi => ⟨?_, ?_⟩⟩
    · cases l with
      | nil => exact absurd rfl hne
      | cons r rest => exact nofun
    · simpa using hcalls.count_le i
    · rw [← hchain]
      exact (stepAt_advances c l.length 0 l).pos_eq i hi

end Sys2Proof.Machine
end

section
/-!
The letters of the Enigma unit (spec 40 R90) and its two cipher commands E_ENTER and E_XFORM (R101,
R102), which are one letter path (R100) with and without the step.
-/

namespace Sys2Proof.Machine

/-! ### Letters -/

theorem toNat_upper (a : Byte) : (upper a).toNat =
    if 0x61 ≤ a.toNat ∧ a.toNat ≤ 0x7A then a.toNat - 0x20 else a.toNat := by
  unfold upper
  split
  · next h => exact BitVec.toNat_sub_of_le (BitVec.le_def.2 (Nat.le_trans (by decide) h.1))
  · rfl

@[simp] theorem toNat_letterByte (x : Letter) : (letterByte x).toNat = 0x41 + x.val :=
  Nat.mod_eq_of_lt (show 0x41 + x.val < 2 ^ 8 by omega)

/-- A byte is letter `x` when it folds to that letter's byte. -/
theorem enigmaLetter_eq_some_iff (c : Config) (a : Byte) (x : Letter) :
    enigmaLetter c a = some x ↔ enigmaFold c a = letterByte x := by
  rw [← BitVec.toNat_inj, toNat_letterByte]
  unfold enigmaLetter
  dsimp only
  split
  · rw [Option.some_inj, Fin.ext_iff]
    dsimp only
    omega
  · refine ⟨nofun, fun h => ?_⟩
    omega

/-- Settles O13: folding takes 0x20 off a lowercase byte when ENIGMA_FOLD_LOWER is true, and leaves
every other byte. -/
theorem enigmaLettersAreClassified : Obligations.EnigmaLettersAreClassified := by
  unfold Obligations.EnigmaLettersAreClassified
  intro c a x
  rw [enigmaLetter_eq_some_iff, ← BitVec.toNat_inj, toNat_letterByte, enigmaFold]
  cases c.foldLower with
  | false => simp
  | true =>
    simp only [if_true, toNat_upper, true_and]
    split <;> omega

theorem enigmaLetter_letterByte (c : Config) (x : Letter) :
    enigmaLetter c (letterByte x) = some x :=
  (enigmaLettersAreClassified c (letterByte x) x).2 (.inl (toNat_letterByte x))

/-- Folding changes no byte but a letter. -/
theorem enigmaFold_of_not_letter {c : Config} {a : Byte} (h : enigmaLetter c a = none) :
    enigmaFold c a = a := by
  by_cases hlower : c.foldLower = true ∧ 0x61 ≤ a.toNat ∧ a.toNat ≤ 0x7A
  · obtain ⟨hfold, hlo, hhi⟩ := hlower
    have hletter : enigmaLetter c a = some ⟨a.toNat - 0x61, by omega⟩ :=
      (enigmaLettersAreClassified c a _).2 (.inr ⟨hfold, (Nat.add_sub_of_le hlo).symm⟩)
    cases h.symm.trans hletter
  · simp only [enigmaFold, upper]
    split_ifs with hfold hcase
    · exact absurd ⟨hfold, hcase⟩ hlower
    · rfl
    · rfl

/-! ### The letter path -/

/-- What E_ENTER and E_XFORM share (spec 40 R100 to R102): a non-letter passes, and a letter needs
the configuration, with which the command ends in the state `t x`. -/
def letterPath (s : State) (a : Byte) (t : Letter → State) : Answer :=
  match enigmaLetter s.cfg a with
  | none => .next (s.respond (enigmaData false a))
  | some x => if s.enigmaReady then .next (t x) else .next (s.raise .nocfg)

theorem exec_eEnter (s : State) (a : Byte) :
    exec (.eEnter a) s = letterPath s a s.stepRotors.answerLetter := rfl

theorem exec_eXform (s : State) (a : Byte) :
    exec (.eXform a) s = letterPath s a s.answerLetter := rfl

section
variable {s : State} {a : Byte} {x : Letter} (t : Letter → State)

theorem letterPath_of_not_letter (ha : enigmaLetter s.cfg a = none) :
    letterPath s a t = .next (s.respond (enigmaData false a)) := by
  simp only [letterPath, ha]

theorem letterPath_of_ready (ha : enigmaLetter s.cfg a = some x) (hready : s.enigmaReady = true) :
    letterPath s a t = .next (t x) := by
  simp only [letterPath, ha, hready, if_true]

theorem letterPath_of_not_ready (ha : enigmaLetter s.cfg a = some x)
    (hready : s.enigmaReady = false) : letterPath s a t = .next (s.raise .nocfg) := by
  simp only [letterPath, ha, hready, Bool.false_eq_true, if_false]

end

theorem enigmaReady_iff (s : State) :
    s.enigmaReady = true ↔ s.refl.fitted = true ∧ ∀ r ∈ s.slots, r.fitted = true := by
  simp [State.enigmaReady]

theorem enigmaReady_eq_false_iff (s : State) :
    s.enigmaReady = false ↔ s.refl.fitted = false ∨ ∃ r ∈ s.slots, r.fitted = false := by
  rw [State.enigmaReady, Bool.and_eq_false_iff]
  simp

theorem enigmaData_false (a : Byte) : enigmaData false a = a.setWidth 16 := BitVec.zero_or

theorem enigmaData_true_letterByte (y : Letter) :
    enigmaData true (letterByte y) = BitVec.ofNat 16 (0x0100 + 0x41 + y.val) := by
  revert y
  decide

theorem answerLetter_eq (s : State) (x : Letter) :
    s.answerLetter x = s.respond (BitVec.ofNat 16 (0x0100 + 0x41 + (s.transform x).val)) :=
  congrArg s.respond (enigmaData_true_letterByte _)

/-- Settles O14: the three outcomes of the letter path, with the step before the substitution. -/
theorem enterStepsThenSubstitutes : Obligations.EnterStepsThenSubstitutes := by
  unfold Obligations.EnterStepsThenSubstitutes
  refine fun s a => ⟨congrArg (· ++ a) (show 0x10#8 ++ 0#8 ++ 0#8 = 0x100000#24 from rfl),
    fun ha => ?_, fun x ha => ⟨fun hunfit => ?_, fun hfit => ?_⟩⟩
  · rw [exec_eEnter, letterPath_of_not_letter _ ha, enigmaData_false]
  · exact letterPath_of_not_ready _ ha ((enigmaReady_eq_false_iff s).2 hunfit)
  · rw [exec_eEnter, letterPath_of_ready _ ha ((enigmaReady_iff s).2 hfit), answerLetter_eq]
    rfl

/-- Settles O15: the three outcomes of the letter path, with no step; and E_XFORM is of the read
class. -/
theorem xformSubstitutesUnstepped : Obligations.XformSubstitutesUnstepped := by
  unfold Obligations.XformSubstitutesUnstepped
  refine fun s a => ⟨congrArg (· ++ a) (show 0x11#8 ++ 0#8 ++ 0#8 = 0x110000#24 from rfl),
    fun ha => ?_, fun x ha => ⟨fun hunfit => ?_, fun hfit => ?_⟩, fun t ht => ?_⟩
  · rw [exec_eXform, letterPath_of_not_letter _ ha, enigmaData_false]
  · exact letterPath_of_not_ready _ ha ((enigmaReady_eq_false_iff s).2 hunfit)
  · rw [exec_eXform, letterPath_of_ready _ ha ((enigmaReady_iff s).2 hfit), answerLetter_eq]
  · exact (readCommandsChangeNothing (.eXform a) s t rfl ht).2

end Sys2Proof.Machine
end

section
/-!
The substitution of the Enigma unit (spec 40 R96 to R99, R103, R104): with bijective wirings the
rotor transforms undo each other, so the backward pass undoes the forward pass, and the pipeline is the
reflector seen through a permutation: an involution, without a fixed point where the reflector has
none.
-/

namespace Sys2Proof

theorem RotorEntry.IsBijection.injective {e : RotorEntry} (h : e.IsBijection) :
    Function.Injective fun x : Letter => e.wiring[x] :=
  Finite.injective_iff_surjective.2 fun y =>
    ⟨Machine.wireInv e.wiring y, Machine.wireInv_spec _ y (h y)⟩

namespace Machine

/-! ### The wirings -/

/-- The inverse lookup finds the letter itself, where the wiring is a bijection (spec 10 R25). -/
theorem wireInv_getElem {e : RotorEntry} (h : e.IsBijection) (x : Letter) :
    wireInv e.wiring e.wiring[x] = x :=
  h.injective (wireInv_spec e.wiring _ (h _))

section
variable {c : Config} (h : ∀ k : Fin 8, c.rotors[k].IsBijection)
include h

theorem slotRotor_bijective (r : Slot) : (slotRotor c r).IsBijection := h r.id

theorem rotorInverse_rotorForward (r : Slot) (x : Letter) :
    rotorInverse c r (rotorForward c r x) = x := by
  simp only [rotorInverse, rotorForward, add_sub_cancel_right,
    wireInv_getElem (slotRotor_bijective h r), sub_add_cancel]

theorem rotorForward_rotorInverse (r : Slot) (x : Letter) :
    rotorForward c r (rotorInverse c r x) = x := by
  simp only [rotorInverse, rotorForward, add_sub_cancel_right,
    wireInv_spec _ _ (slotRotor_bijective h r _), sub_add_cancel]

/-! ### The passes -/

theorem backwardPass_forwardPass (l : List Slot) (x : Letter) :
    backwardPass c l (forwardPass c l x) = x := by
  induction l generalizing x with
  | nil => rfl
  | cons r rest ih =>
    calc rotorInverse c r (backwardPass c rest (forwardPass c rest (rotorForward c r x)))
        = rotorInverse c r (rotorForward c r x) := by rw [ih]
      _ = x := rotorInverse_rotorForward h r x

theorem forwardPass_backwardPass (l : List Slot) (x : Letter) :
    forwardPass c l (backwardPass c l x) = x := by
  induction l with
  | nil => rfl
  | cons r rest ih =>
    calc forwardPass c rest (rotorForward c r (rotorInverse c r (backwardPass c rest x)))
        = forwardPass c rest (backwardPass c rest x) := by rw [rotorForward_rotorInverse h]
      _ = x := ih

end

/-! ### The formulas -/

/-- Subtraction of letters, computed on natural numbers (spec 40 R124). -/
theorem letter_sub (x p : Letter) :
    x - p = ⟨(x.val + 26 - p.val) % 26, Nat.mod_lt _ (by omega)⟩ := by
  apply Fin.ext
  rw [Fin.val_sub]
  dsimp only
  omega

/-- Settles O20: the formulas are those of the model with the letters' arithmetic written out, and
the wirings cancel between them. -/
theorem rotorTransformsFollowFormulasAndUndo : Obligations.RotorTransformsFollowFormulasAndUndo := by
  unfold Obligations.RotorTransformsFollowFormulasAndUndo
  intro c r x h
  refine ⟨?_, ⟨wireInv (slotRotor c r).wiring (x - r.pos), ?_, Fin.val_add _ _⟩,
    rotorInverse_rotorForward h r x, rotorForward_rotorInverse h r x⟩
  · simp only [rotorForward, letter_sub, Fin.val_add]
    rfl
  · have hspec := wireInv_spec (slotRotor c r).wiring (x - r.pos) (slotRotor_bijective h r _)
    exact congrArg Fin.val (hspec.trans (letter_sub x r.pos))

/-! ### The pipeline -/

/-- A letter as it reaches the reflector, through plugboard and forward pass (spec 40 R99). -/
def State.inward (s : State) (x : Letter) : Letter := forwardPass s.cfg s.slots (s.partner x)

/-- A letter on its way back from the reflector. -/
def State.outward (s : State) (y : Letter) : Letter := s.partner (backwardPass s.cfg s.slots y)

theorem transform_eq (s : State) (x : Letter) :
    s.transform x = s.outward (s.reflect (s.inward x)) := rfl

section
variable {s : State} (h : s.Sound)
include h

theorem State.Sound.outward_inward (x : Letter) : s.outward (s.inward x) = x := by
  rw [outward, inward, backwardPass_forwardPass h.cfg_wellFormed.rotors_bijective,
    h.plug_involutive x]

theorem State.Sound.inward_outward (y : Letter) : s.inward (s.outward y) = y := by
  rw [outward, inward, h.plug_involutive _,
    forwardPass_backwardPass h.cfg_wellFormed.rotors_bijective]

theorem State.Sound.reflect_involutive : s.reflect.Involutive :=
  h.cfg_wellFormed.reflectors_involutive s.refl.id

theorem State.Sound.transform_involutive : s.transform.Involutive := by
  intro x
  rw [transform_eq, transform_eq, h.inward_outward, h.reflect_involutive, h.outward_inward]

theorem State.Sound.transform_ne_self (hrefl : ∀ x, s.reflect x ≠ x) (x : Letter) :
    s.transform x ≠ x := by
  intro hx
  apply hrefl (s.inward x)
  calc s.reflect (s.inward x) = s.inward (s.transform x) := (h.inward_outward _).symm
    _ = s.inward x := by rw [hx]

end

/-- E_XFORM of a letter's own byte. -/
theorem exec_eXform_letterByte {s : State} (hready : s.enigmaReady = true) (x : Letter) :
    exec (.eXform (letterByte x)) s =
      .next (s.respond (enigmaData true (letterByte (s.transform x)))) :=
  letterPath_of_ready s.answerLetter (enigmaLetter_letterByte s.cfg x) hready

/-- Settles O21: the pipeline is the reflector between two maps that undo each other. -/
theorem substitutionPipelineIsAnInvolution : Obligations.SubstitutionPipelineIsAnInvolution := by
  unfold Obligations.SubstitutionPipelineIsAnInvolution
  refine ⟨fun s x => rfl, fun c r rest x => ⟨rfl, rfl, rfl, rfl⟩, fun s hinv => ?_⟩
  have hinvol := ((inv_iff s).1 hinv).1.transform_involutive
  refine ⟨hinvol, fun hready x => ⟨s.transform x, exec_eXform_letterByte hready x, ?_⟩⟩
  rw [exec_eXform_letterByte hready, hinvol x]

/-- Settles O22: a fixed point of the pipeline would be one of the reflector, and the default
reflectors have none. -/
theorem noLetterEnciphersToItself : Obligations.NoLetterEnciphersToItself := by
  unfold Obligations.NoLetterEnciphersToItself
  exact ⟨fun s hinv hrefl => ((inv_iff s).1 hinv).1.transform_ne_self hrefl, by decide⟩

end Machine

end Sys2Proof
end

section
/-!
Reciprocity (spec 40 R105, R201). One E_ENTER and the taking of its response is a total function of
a ready state (`State.entered`), so a text is a fold of it. Two blocks whose Enigma units are alike
step alike, and the second turns the first's output byte back into the byte it was made from.
-/

namespace Sys2Proof.Machine

/-! ### One byte -/

/-- The state after a response with data `d` has been taken. -/
def State.answered (s : State) (d : Data) : State := (s.respond d).takeResponse (okResponse d)

/-- The byte E_ENTER answers in a ready state. -/
def State.cipherByte (s : State) (a : Byte) : Byte :=
  match enigmaLetter s.cfg a with
  | none => a
  | some x => letterByte (s.stepRotors.transform x)

/-- A ready state after an E_ENTER and the taking of its response. -/
def State.entered (s : State) (a : Byte) : State :=
  match enigmaLetter s.cfg a with
  | none => s.answered (enigmaData false a)
  | some x => s.stepRotors.answered (enigmaData true (letterByte (s.stepRotors.transform x)))

section
variable {s : State} {a : Byte} {x : Letter}

theorem cipherByte_of_not_letter (ha : enigmaLetter s.cfg a = none) : s.cipherByte a = a := by
  simp only [State.cipherByte, ha]

theorem cipherByte_of_letter (ha : enigmaLetter s.cfg a = some x) :
    s.cipherByte a = letterByte (s.stepRotors.transform x) := by
  simp only [State.cipherByte, ha]

theorem entered_of_not_letter (ha : enigmaLetter s.cfg a = none) :
    s.entered a = s.answered (enigmaData false a) := by
  simp only [State.entered, ha]

theorem entered_of_letter (ha : enigmaLetter s.cfg a = some x) :
    s.entered a =
      s.stepRotors.answered (enigmaData true (letterByte (s.stepRotors.transform x))) := by
  simp only [State.entered, ha]

end

theorem runWord_encode (i : Instr) (s : State) : runWord (encode i) s = exec i s := by
  simp only [runWord, decodeOfEncodeIsIdentity i]

theorem runCommand_eEnter {s : State} (hready : s.enigmaReady = true) (a : Byte) :
    runCommand (encode (.eEnter a)) s = .next (s.entered a) := by
  rw [runCommand, runWord_encode, exec_eEnter]
  cases ha : enigmaLetter s.cfg a with
  | none => rw [letterPath_of_not_letter _ ha, entered_of_not_letter ha]; rfl
  | some x => rw [letterPath_of_ready _ ha hready, entered_of_letter ha]; rfl

@[simp] theorem stepRotors_enigmaReady (s : State) : s.stepRotors.enigmaReady = s.enigmaReady := by
  simp [State.enigmaReady, all_fitted_identities]

/-- What E_ENTER keeps of a ready state that is sound. -/
theorem entered_keeps (s : State) (a : Byte) :
    (s.entered a).cfg = s.cfg ∧ (s.entered a).enigmaReady = s.enigmaReady ∧
      (s.Sound → (s.entered a).Sound) := by
  cases ha : enigmaLetter s.cfg a with
  | none =>
    rw [entered_of_not_letter ha]
    exact ⟨rfl, rfl, fun h => (h.respond _).takeResponse _⟩
  | some x =>
    rw [entered_of_letter ha]
    exact ⟨rfl, stepRotors_enigmaReady s, fun h => (h.stepRotors.respond _).takeResponse _⟩

/-- The letter flag is bit 8 of the data (spec 30 R79). -/
theorem letterFlag_getLsbD (letterFlag : Bool) : ∀ i < 8,
    (if letterFlag then 0x0100#16 else 0x0000#16).getLsbD i = false := by
  cases letterFlag <;> decide

/-- The output byte stands in bits 7:0 of the response (spec 30 R79). -/
theorem outputByte_okResponse (letterFlag : Bool) (b : Byte) :
    (okResponse (enigmaData letterFlag b)).extractLsb' 0 8 = b := by
  apply BitVec.eq_of_getLsbD_eq
  intro i hi
  have hi16 : i < 16 := hi.trans (by decide)
  simp only [okResponse, BitVec.getLsbD_extractLsb', responseWord_getLsbD, enigmaData,
    BitVec.getLsbD_or, BitVec.getLsbD_setWidth, Nat.zero_add, hi, hi16,
    letterFlag_getLsbD letterFlag i hi, if_true, decide_true, Bool.true_and, Bool.false_or]

theorem answered_outputs (s : State) (letterFlag : Bool) (b : Byte) :
    (s.answered (enigmaData letterFlag b)).outputs = s.outputs ++ [b] := by
  simp [State.answered, State.outputs, outputByte_okResponse]

theorem entered_outputs (s : State) (a : Byte) :
    (s.entered a).outputs = s.outputs ++ [s.cipherByte a] := by
  cases ha : enigmaLetter s.cfg a with
  | none => rw [entered_of_not_letter ha, cipherByte_of_not_letter ha, answered_outputs]
  | some x =>
    rw [entered_of_letter ha, cipherByte_of_letter ha, answered_outputs]
    rfl

/-! ### A text -/

/-- The bytes E_ENTER answers to a text, from a ready state. -/
def State.cipherText (s : State) : List Byte → List Byte
  | [] => []
  | a :: text => s.cipherByte a :: (s.entered a).cipherText text

theorem issueAll_pseudoEncode {s : State} (hready : s.enigmaReady = true) (text : List Byte) :
    issueAll (pseudoEncode text) s = .next (text.foldl State.entered s) := by
  induction text generalizing s with
  | nil => rfl
  | cons a text ih =>
    obtain ⟨-, hkeeps, -⟩ := entered_keeps s a
    calc issueAll (pseudoEncode (a :: text)) s = issueAll (pseudoEncode text) (s.entered a) := by
          simp only [issueAll, pseudoEncode, List.map_cons, runCommands, runCommand_eEnter hready]
      _ = .next (text.foldl State.entered (s.entered a)) := ih (hkeeps.trans hready)

theorem foldl_entered_outputs (s : State) (text : List Byte) :
    (text.foldl State.entered s).outputs = s.outputs ++ s.cipherText text := by
  induction text generalizing s with
  | nil => exact (List.append_nil _).symm
  | cons a text ih =>
    rw [List.foldl_cons, ih, entered_outputs, List.append_assoc]
    rfl

/-! ### Two blocks alike -/

/-- Two blocks with the same configuration and the same Enigma unit (spec 10 R20). -/
structure SameEnigma (s u : State) : Prop where
  cfg_eq : u.cfg = s.cfg
  slots_eq : u.slots = s.slots
  refl_eq : u.refl = s.refl
  plug_eq : u.plug = s.plug

namespace SameEnigma

variable {s u : State}

theorem answered (h : SameEnigma s u) (d d' : Data) : SameEnigma (s.answered d) (u.answered d') :=
  ⟨h.cfg_eq, h.slots_eq, h.refl_eq, h.plug_eq⟩

theorem stepRotors (h : SameEnigma s u) : SameEnigma s.stepRotors u.stepRotors :=
  ⟨h.cfg_eq, by simp only [stepRotors_slots, h.cfg_eq, h.slots_eq], h.refl_eq, h.plug_eq⟩

theorem transform_eq (h : SameEnigma s u) (x : Letter) : u.transform x = s.transform x := by
  simp only [State.transform, State.reflect, State.partner, h.cfg_eq, h.slots_eq, h.refl_eq,
    h.plug_eq]

/-- The second block turns the first's output byte back, and the two stay alike. -/
theorem entered (h : SameEnigma s u) (hs : s.Sound) (a : Byte) :
    u.cipherByte (s.cipherByte a) = enigmaFold s.cfg a ∧
      SameEnigma (s.entered a) (u.entered (s.cipherByte a)) := by
  cases ha : enigmaLetter s.cfg a with
  | none =>
    have hau : enigmaLetter u.cfg a = none := h.cfg_eq ▸ ha
    rw [cipherByte_of_not_letter ha, cipherByte_of_not_letter hau, entered_of_not_letter ha,
      entered_of_not_letter hau, enigmaFold_of_not_letter ha]
    exact ⟨rfl, h.answered _ _⟩
  | some x =>
    have hau := enigmaLetter_letterByte u.cfg (s.stepRotors.transform x)
    have hback : u.stepRotors.transform (s.stepRotors.transform x) = x :=
      (h.stepRotors.transform_eq _).trans (hs.stepRotors.transform_involutive x)
    rw [cipherByte_of_letter ha, cipherByte_of_letter hau, hback, entered_of_letter ha,
      entered_of_letter hau, (enigmaLetter_eq_some_iff s.cfg a x).1 ha]
    exact ⟨rfl, h.stepRotors.answered _ _⟩

/-- The same for a text. -/
theorem foldl_entered (h : SameEnigma s u) (hs : s.Sound) (text : List Byte) :
    u.cipherText (s.cipherText text) = text.map (enigmaFold s.cfg) ∧
      SameEnigma (text.foldl State.entered s) ((s.cipherText text).foldl State.entered u) := by
  induction text generalizing s u with
  | nil => exact ⟨rfl, h⟩
  | cons a text ih =>
    obtain ⟨hbyte, hnext⟩ := h.entered hs a
    obtain ⟨hcfg, -, hsound⟩ := entered_keeps s a
    obtain ⟨htext, hend⟩ := ih hnext (hsound hs)
    refine ⟨?_, hend⟩
    calc u.cipherText (s.cipherText (a :: text))
        = u.cipherByte (s.cipherByte a) ::
            (u.entered (s.cipherByte a)).cipherText ((s.entered a).cipherText text) := rfl
      _ = (a :: text).map (enigmaFold s.cfg) := by rw [hbyte, htext, hcfg, List.map_cons]

end SameEnigma

/-- Settles O23: both runs start from one state, so the second meets the first's states one by one,
with the same Enigma unit. -/
theorem enciphermentIsReciprocal : Obligations.EnciphermentIsReciprocal := by
  unfold Obligations.EnciphermentIsReciprocal
  intro s text hinv hready htaken
  have houtputs (l : List Byte) : (l.foldl State.entered s).outputs = s.cipherText l := by
    rw [foldl_entered_outputs]
    simp [State.outputs, htaken]
  have hsame : SameEnigma s s := ⟨rfl, rfl, rfl, rfl⟩
  obtain ⟨htext, hend⟩ := hsame.foldl_entered ((inv_iff s).1 hinv).1 text
  refine ⟨_, _, issueAll_pseudoEncode hready text, issueAll_pseudoEncode hready _, ?_, ?_⟩
  · rw [houtputs, houtputs, htext]
  · rw [houtputs]
    exact hend.slots_eq

end Sys2Proof.Machine
end

section
/-!
The characters of the Lorenz unit (spec 41 R130): what a lookup in the Baudot table finds, the three
classes of a byte, and the symbols of the default table.
-/

namespace Sys2Proof.Machine

/-! ### The table -/

theorem mem_baudot_iff (c : Config) (o : Option Byte) :
    o ∈ c.baudot.toList ↔ ∃ k : Code, c.baudot[k.toFin] = o := by
  rw [Vector.mem_toList_iff, Vector.mem_iff_getElem]
  exact ⟨fun ⟨i, hi, ho⟩ => ⟨BitVec.ofFin ⟨i, hi⟩, ho⟩, fun ⟨k, ho⟩ => ⟨_, k.isLt, ho⟩⟩

/-- The symbols are the bytes the table maps some code to (spec 10 R57). -/
theorem mem_symbols_iff (c : Config) (b : Byte) :
    b ∈ c.symbols ↔ ∃ k : Code, c.baudot[k.toFin] = some b := by
  rw [Config.symbols, List.mem_filterMap, ← mem_baudot_iff]
  simp only [id_eq, exists_eq_right]

/-- The lookup finds nothing exactly for a byte the table maps no code to. -/
theorem baudotCode_eq_none_iff (c : Config) (b : Byte) :
    baudotCode c b = none ↔ ∀ k : Code, c.baudot[k.toFin] ≠ some b := by
  rw [baudotCode, Option.map_eq_none_iff, List.findIdx?_eq_none_iff]
  simp only [mem_baudot_iff, forall_exists_index, forall_apply_eq_imp_iff, beq_eq_false_iff_ne]

/-- The code the lookup finds maps to the byte. -/
theorem baudot_of_baudotCode {c : Config} {b : Byte} {k : Code} (h : baudotCode c b = some k) :
    c.baudot[k.toFin] = some b := by
  obtain ⟨i, hi, rfl⟩ := Option.map_eq_some_iff.1 h
  obtain ⟨hlt, hb, -⟩ := List.findIdx?_eq_some_iff_getElem.1 hi
  have hmod : i % 32 = i := Nat.mod_eq_of_lt (by simpa using hlt)
  simpa [hmod] using hb

/-! ### The three classes -/

section
variable {c : Config} {a : Byte}

theorem lorenzClass_of_newline (ha : upper a = newlineByte) : lorenzClass c a = .newline :=
  if_pos ha

theorem lorenzClass_of_code {k : Code} (ha : upper a ≠ newlineByte)
    (hk : baudotCode c (upper a) = some k) : lorenzClass c a = .symbol (upper a) k := by
  simp only [lorenzClass, if_neg ha, hk]

theorem lorenzClass_of_no_code (ha : upper a ≠ newlineByte) (hk : baudotCode c (upper a) = none) :
    lorenzClass c a = .other := by
  simp only [lorenzClass, if_neg ha, hk]

/-- The code of a symbol maps to that symbol. -/
theorem baudot_of_lorenzClass {b : Byte} {k : Code} (h : lorenzClass c a = .symbol b k) :
    c.baudot[k.toFin] = some b := by
  unfold lorenzClass at h
  split at h
  · cases h
  · split at h
    · next hk =>
      obtain ⟨rfl, rfl⟩ := LorenzChar.symbol.inj h
      exact baudot_of_baudotCode hk
    · cases h

end

/-! ### The default table -/

/-- The symbols of the default table other than LF are the capital letters, NUL, SP and CR (spec 10
R57). -/
theorem mem_default_symbols_iff {u : Byte} (hu : u ≠ 0x0A) : u ∈ Config.default.symbols ↔
    (0x41 ≤ u.toNat ∧ u.toNat ≤ 0x5A) ∨ u = 0x00 ∨ u = 0x20 ∨ u = 0x0D := by
  constructor
  · have hlisted : ∀ b ∈ Config.default.symbols, b ≠ 0x0A →
        (0x41 ≤ b.toNat ∧ b.toNat ≤ 0x5A) ∨ b = 0x00 ∨ b = 0x20 ∨ b = 0x0D := by decide
    exact fun h => hlisted u h hu
  · rintro (⟨hlo, hhi⟩ | rfl | rfl | rfl)
    · have hletters : ∀ x : Letter, letterByte x ∈ Config.default.symbols := by decide
      have hx : letterByte ⟨u.toNat - 0x41, by omega⟩ = u :=
        BitVec.eq_of_toNat_eq ((toNat_letterByte _).trans (Nat.add_sub_of_le hlo))
      exact hx ▸ hletters _
    · decide
    · decide
    · decide

/-- Settles O32: the default table's symbols, and for any table the class by what its lookup finds
for the uppercased byte. -/
theorem lorenzBytesAreClassified : Obligations.LorenzBytesAreClassified := by
  unfold Obligations.LorenzBytesAreClassified
  refine ⟨fun u hu => (mem_symbols_iff Config.default u).symm.trans (mem_default_symbols_iff hu),
    fun c a u hupper => ?_⟩
  obtain rfl : u = upper a := hupper
  refine ⟨lorenzClass_of_newline, fun ha ⟨k, hk⟩ => ?_, fun ha hno => ?_⟩
  · cases hcode : baudotCode c (upper a) with
    | none => exact absurd hk ((baudotCode_eq_none_iff c _).1 hcode k)
    | some l => exact ⟨l, lorenzClass_of_code ha hcode, baudot_of_baudotCode hcode⟩
  · exact lorenzClass_of_no_code ha ((baudotCode_eq_none_iff c _).2 hno)

end Sys2Proof.Machine
end

section
/-!
The combiner of the Lorenz unit (spec 41 R131 to R133, R142, R143): each bit of the key is that of a
chi pin and a psi pin, so the key is its own inverse; on characters of the default table that makes
L_XFORM undo itself but where the output is the sentinel or LF.
-/

namespace Sys2Proof.Machine

/-! ### The key -/

/-- Bit `k` of a word of five pins is the pin of its wheel `k` (spec 41 R132). -/
theorem pinWord_getLsbD (s : State) (w : Fin 5 → WheelIx) (k : Fin 5) :
    (s.pinWord (w 0) (w 1) (w 2) (w 3) (w 4)).getLsbD k.val = s.currentPin (w k) := by
  simp only [State.pinWord, BitVec.getLsbD_append, BitVec.getLsbD_ofBool]
  fin_cases k <;> simp

theorem chiWord_getLsbD (s : State) (k : Fin 5) :
    s.chiWord.getLsbD k.val = s.currentPin ⟨k.val, by omega⟩ :=
  pinWord_getLsbD s (fun k => ⟨k.val, by omega⟩) k

theorem psiWord_getLsbD (s : State) (k : Fin 5) :
    s.psiWord.getLsbD k.val = s.currentPin ⟨5 + k.val, by omega⟩ :=
  pinWord_getLsbD s (fun k => ⟨5 + k.val, by omega⟩) k

theorem combine_getLsbD (s : State) (code : Code) (k : Fin 5) :
    (s.combine code).getLsbD k.val = ((code.getLsbD k.val ^^ s.currentPin ⟨k.val, by omega⟩) ^^
      !s.currentPin ⟨5 + k.val, by omega⟩) := by
  rw [State.combine, BitVec.getLsbD_xor, BitVec.getLsbD_xor, BitVec.getLsbD_not, chiWord_getLsbD,
    psiWord_getLsbD, decide_eq_true k.isLt, Bool.true_and]

/-- The key is one word for every code (spec 41 R133). -/
theorem combine_eq_xor_key (s : State) (code : Code) :
    s.combine code = code ^^^ (s.chiWord ^^^ ~~~ s.psiWord) :=
  BitVec.xor_assoc code s.chiWord (~~~ s.psiWord)

/-- Settles O33: the key bit by bit; equal pins make every bit of it 1, complementary pins every bit
0. -/
theorem combinerXorsTheKey : Obligations.CombinerXorsTheKey := by
  unfold Obligations.CombinerXorsTheKey
  refine fun s code => ⟨combine_getLsbD s code, rfl, combine_eq_xor_key s code, fun heq => ?_,
    fun hcompl => ?_⟩
  · apply BitVec.eq_of_getLsbD_eq
    intro i hi
    have hones : (0b11111#5).getLsbD i = true :=
      BitVec.getLsbD_allOnes.trans (decide_eq_true hi)
    rw [combine_getLsbD s code ⟨i, hi⟩, heq ⟨i, hi⟩, BitVec.getLsbD_xor, hones, Bool.xor_assoc,
      Bool.xor_not_self]
  · apply BitVec.eq_of_getLsbD_eq
    intro i hi
    rw [combine_getLsbD s code ⟨i, hi⟩, hcompl ⟨i, hi⟩, Bool.xor_assoc, Bool.xor_self,
      Bool.xor_false]

/-- Enciphering under the same pins twice gives the code back (spec 41 R143). -/
theorem combine_combine (s : State) (code : Code) : s.combine (s.combine code) = code := by
  rw [combine_eq_xor_key, combine_eq_xor_key s code, BitVec.xor_assoc, BitVec.xor_self,
    BitVec.xor_zero]

/-! ### L_XFORM -/

theorem lorenzData_enciphered (b : Byte) : lorenzData .enciphered b = b.setWidth 16 :=
  (BitVec.setWidth_eq_append (by decide)).symm

section
variable {s : State} {a : Byte}

theorem exec_lXform_of_newline (ha : lorenzClass s.cfg a = .newline) :
    exec (.lXform a) s = .next (s.respond 0x010A) := by
  simp only [exec, execLXform, ha]
  rfl

theorem exec_lXform_of_other (ha : lorenzClass s.cfg a = .other) :
    exec (.lXform a) s = .next (s.respond 0x0200) := by
  simp only [exec, execLXform, ha]
  rfl

theorem exec_lXform_of_symbol {c : Byte} {k : Code} (ha : lorenzClass s.cfg a = .symbol c k) :
    exec (.lXform a) s = .next (s.respond ((s.encryptChar k).setWidth 16)) := by
  simp only [exec, execLXform, ha, lorenzData_enciphered]

end

/-- Settles O36: one equation for each class of the byte. -/
theorem lxformEnciphersUnstepped : Obligations.LxformEnciphersUnstepped := by
  unfold Obligations.LxformEnciphersUnstepped
  exact fun s a => ⟨congrArg (· ++ a) (show 0x21#8 ++ 0#8 ++ 0#8 = 0x210000#24 from rfl),
    exec_lXform_of_newline, exec_lXform_of_other, fun c k => exec_lXform_of_symbol⟩

/-! ### L_XFORM of its own output -/

theorem lorenzClass_congr {c c' : Config} (h : c.baudot = c'.baudot) (a : Byte) :
    lorenzClass c a = lorenzClass c' a := by
  simp only [lorenzClass, baudotCode, h]

theorem baudotSymbol_congr {c c' : Config} (h : c.baudot = c'.baudot) (k : Code) :
    baudotSymbol c k = baudotSymbol c' k := by
  simp only [baudotSymbol, h]

/-- The class of an output byte of the default table, by its code: the two unmapped codes give the
sentinel, which is no symbol; code 2 is LF, which is the newline; and every other output is a symbol
of its own code. -/
theorem lorenzClass_baudotSymbol {c : Config} (hc : c.baudot = defaultBaudot) (m : Code) :
    lorenzClass c (baudotSymbol c m) =
      if m = 27 ∨ m = 31 then .other
      else if m = 2 then .newline
      else .symbol (baudotSymbol c m) m := by
  have hdefault : c.baudot = Config.default.baudot := hc
  rw [lorenzClass_congr hdefault, baudotSymbol_congr hdefault]
  revert m
  decide

/-- Settles O39: the first output is the symbol of the combined code, whose class says what the
second L_XFORM answers, and a symbol is deciphered by the key that enciphered it. -/
theorem lxformTwiceReturnsTheSymbol : Obligations.LxformTwiceReturnsTheSymbol := by
  unfold Obligations.LxformTwiceReturnsTheSymbol
  refine fun s => ⟨combine_combine s, fun hc a c k ha => ⟨exec_lXform_of_symbol ha, ?_⟩⟩
  have hclass : lorenzClass s.cfg (s.encryptChar k) = _ := lorenzClass_baudotSymbol hc (s.combine k)
  split_ifs at hclass ⊢
  · exact exec_lXform_of_other hclass
  · exact exec_lXform_of_newline hclass
  · have hback : s.encryptChar (s.combine k) = c := by
      rw [State.encryptChar, combine_combine, baudotSymbol, baudot_of_lorenzClass ha,
        Option.getD_some]
    rw [exec_lXform_of_symbol hclass, hback]

end Sys2Proof.Machine
end

section
/-!
The step of the Lorenz unit and L_PROC (spec 41 R134 to R138, R141, R144): which wheels one step
moves, what an enciphered symbol leaves, the wheels under a text while the coarse motor's pins are
0, and which commands change a wheel.
-/

namespace Sys2Proof.Machine

/-! ### One step -/

/-- The wheels one step moves, by the gate pins `m0` of the fine and `m1` of the coarse motor (spec
41 R135, R136). -/
theorem mem_steppedWheels_iff (m0 m1 : Bool) (w : WheelIx) : w ∈ steppedWheels m0 m1 ↔
    w.val ≤ 4 ∨ w.val = 11 ∨ (w.val ≤ 9 ∧ m0 = true) ∨ (w.val = 10 ∧ m1 = true) := by
  revert m0 m1 w
  decide

theorem stepWheels_wheel (s : State) (w : WheelIx) : s.stepWheels.wheel w =
    if w ∈ steppedWheels (s.currentPin 10) (s.currentPin 11)
    then (s.wheel w).step s.cfg.wheelSizes[w] else s.wheel w :=
  stepEach_wheel s _ (steppedWheels_nodup _ _) w

/-- Settles O34: the wheels of the step's list move one on each, and the rest of the state stays. -/
theorem motorPinsGateTheWheels : Obligations.MotorPinsGateTheWheels := by
  unfold Obligations.MotorPinsGateTheWheels
  refine fun s => ⟨stepWheels_frame s, fun w => ?_⟩
  simp only [stepWheels_wheel, mem_steppedWheels_iff]
  rfl

theorem Wheel.pin_of_getElem? {v : Wheel} {b : Bool} (h : v.pins[v.pos]? = some b) :
    v.pin = b := by
  simp [Wheel.pin, h]

/-- What stepping does to the wheels depends on the wheels and their sizes alone. -/
theorem stepEach_wheels_congr {s u : State} (hcfg : u.cfg = s.cfg) (hwheels : u.wheels = s.wheels)
    (ws : List WheelIx) : (u.stepEach ws).wheels = (s.stepEach ws).wheels := by
  induction ws generalizing s u with
  | nil => exact hwheels
  | cons w ws ih =>
    refine ih (s := s.stepWheel w) (u := u.stepWheel w) hcfg ?_
    simp only [State.stepWheel, State.wheel, setWheel_wheels, hcfg, hwheels]

theorem stepWheels_wheels_congr {s u : State} (hcfg : u.cfg = s.cfg)
    (hwheels : u.wheels = s.wheels) : u.stepWheels.wheels = s.stepWheels.wheels := by
  have hpin : u.currentPin = s.currentPin := by
    funext w
    simp only [State.currentPin, State.wheel, hwheels]
  simp only [State.stepWheels, hpin]
  exact stepEach_wheels_congr hcfg hwheels _

/-! ### L_PROC -/

/-- The two logs are appended and the wheels step, each as if alone (spec 41 R141). -/
theorem appended_stepWheels (s : State) (p c : Byte) : (s.appended p c).stepWheels =
    { s.appended p c with wheels := s.stepWheels.wheels } := by
  rw [stepWheels_frame, stepWheels_wheels_congr (s := s) (u := s.appended p c) rfl rfl]

/-- Settles O35: one equation for each outcome of L_PROC. -/
theorem lprocEnciphersLogsAndSteps : Obligations.LprocEnciphersLogsAndSteps := by
  unfold Obligations.LprocEnciphersLogsAndSteps
  refine fun s a => ⟨congrArg (· ++ a) (show 0x20#8 ++ 0#8 ++ 0#8 = 0x200000#24 from rfl),
    exec_lProc_of_other, exec_lProc_of_full, exec_lProc_of_newline, fun c k ha hroom => ?_⟩
  rw [exec_lProc_of_symbol ha hroom, appended_stepWheels, lorenzData_enciphered]
  rfl

/-- The state after an L_PROC of symbol `c` with code `k` and room in the logs, its response
taken. -/
def State.enciphered (s : State) (c : Byte) (k : Code) : State :=
  (s.appended c (s.encryptChar k)).stepWheels.answered (lorenzData .enciphered (s.encryptChar k))

theorem runCommand_lProc_of_symbol {s : State} {a c : Byte} {k : Code}
    (ha : lorenzClass s.cfg a = .symbol c k) (hroom : s.loglen.toNat < s.cfg.logDepth) :
    runCommand (encode (.lProc a)) s = .next (s.enciphered c k) := by
  rw [runCommand, runWord_encode, exec_lProc_of_symbol ha hroom]
  rfl

theorem State.Sound.enciphered {s : State} (h : s.Sound)
    (hroom : s.loglen.toNat < s.cfg.logDepth) (c : Byte) (k : Code) : (s.enciphered c k).Sound :=
  ((h.appended hroom _ _).stepWheels.respond _).takeResponse _

@[simp] theorem enciphered_cfg (s : State) (c : Byte) (k : Code) :
    (s.enciphered c k).cfg = s.cfg := by
  rw [State.enciphered, appended_stepWheels]
  rfl

theorem enciphered_wheel (s : State) (c : Byte) (k : Code) (w : WheelIx) :
    (s.enciphered c k).wheel w = s.stepWheels.wheel w := by
  rw [State.enciphered, appended_stepWheels]
  rfl

/-- The length grows by one without wrapping, since LOG_DEPTH is at most 65535 (spec 00 R7). -/
theorem State.Sound.enciphered_loglen {s : State} (h : s.Sound)
    (hroom : s.loglen.toNat < s.cfg.logDepth) (c : Byte) (k : Code) :
    (s.enciphered c k).loglen.toNat = s.loglen.toNat + 1 := by
  have hdepth := h.cfg_wellFormed.logDepth_le
  rw [State.enciphered, appended_stepWheels]
  exact BitVec.toNat_add_of_lt (show s.loglen.toNat + 1 < 2 ^ 16 by omega)

/-! ### A text under a frozen fine motor -/

/-- A wheel `n` steps on (spec 41 R134). -/
def Wheel.advance (size n : Nat) (v : Wheel) : Wheel := { v with pos := (v.pos + n) % size }

theorem Wheel.Fits.advance_zero {size : Nat} {v : Wheel} (h : v.Fits size) :
    v.advance size 0 = v := by
  simp [Wheel.advance, Nat.mod_eq_of_lt h.pos_lt]

theorem Wheel.advance_step (size n : Nat) (v : Wheel) :
    (v.step size).advance size n = v.advance size (n + 1) := by
  simp [Wheel.advance, Wheel.step, Nat.add_assoc, Nat.add_comm 1 n]

/-- One symbol of a text. -/
theorem issueAll_pseudoLprocess_cons {s : State} {a c : Byte} {k : Code}
    (ha : lorenzClass s.cfg a = .symbol c k) (hroom : s.loglen.toNat < s.cfg.logDepth)
    (text : List Byte) :
    issueAll (pseudoLprocess (a :: text)) s =
      issueAll (pseudoLprocess text) (s.enciphered c k) := by
  simp only [issueAll, pseudoLprocess, List.map_cons, runCommands,
    runCommand_lProc_of_symbol ha hroom]

section
variable {s : State} (hcoarse : s.currentPin 11 = false) (c : Byte) (k : Code)
include hcoarse

/-- A symbol with the coarse motor's pin 0 moves every wheel but the fine motor and, by the fine
motor's pin, the psi wheels. -/
theorem enciphered_wheel_of_coarse_zero (w : WheelIx) : (s.enciphered c k).wheel w =
    if w ∈ steppedWheels (s.currentPin 10) false
    then (s.wheel w).step s.cfg.wheelSizes[w] else s.wheel w := by
  rw [enciphered_wheel, stepWheels_wheel, hcoarse]

/-- It leaves the fine motor's pin as it was. -/
theorem enciphered_fine_pin_of_coarse_zero :
    (s.enciphered c k).currentPin 10 = s.currentPin 10 := by
  simp [State.currentPin, enciphered_wheel_of_coarse_zero hcoarse, mem_steppedWheels_iff]

end

/-- The coarse motor moves at every symbol (spec 41 R135). -/
theorem enciphered_coarse (s : State) (c : Byte) (k : Code) : (s.enciphered c k).wheel 11 =
    (s.wheel 11).step s.cfg.wheelSizes[(11 : WheelIx)] := by
  rw [enciphered_wheel, stepWheels_wheel,
    if_pos ((mem_steppedWheels_iff _ _ _).2 (.inr (.inl rfl)))]

/-- Under a text each wheel moves at every symbol or at none, since the fine motor, whose pin gates
the psi wheels, stands still (spec 41 R144). -/
theorem issueAll_pseudoLprocess_of_coarse_zero {s : State} (hs : s.Sound) {text : List Byte}
    (hroom : s.loglen.toNat + text.length ≤ s.cfg.logDepth)
    (hsym : ∀ a ∈ text, ∃ c k, lorenzClass s.cfg a = .symbol c k)
    (hzero : ∀ n < text.length,
      ((s.wheel 11).advance s.cfg.wheelSizes[(11 : WheelIx)] n).pin = false) :
    ∃ t, issueAll (pseudoLprocess text) s = .next t ∧
      ∀ w, t.wheel w = if w ∈ steppedWheels (s.currentPin 10) false
        then (s.wheel w).advance s.cfg.wheelSizes[w] text.length else s.wheel w := by
  induction text generalizing s with
  | nil =>
    refine ⟨s, rfl, fun w => ?_⟩
    rw [List.length_nil, (hs.wheel_fits w).advance_zero, ite_self]
  | cons a text ih =>
    obtain ⟨c, k, ha⟩ := hsym a List.mem_cons_self
    rw [List.length_cons] at hroom
    have hlt : s.loglen.toNat < s.cfg.logDepth := by omega
    have hcoarse : s.currentPin 11 = false := by
      rw [State.currentPin, ← (hs.wheel_fits 11).advance_zero]
      exact hzero 0 (Nat.zero_lt_succ _)
    have hroom' : (s.enciphered c k).loglen.toNat + text.length ≤
        (s.enciphered c k).cfg.logDepth := by
      rw [hs.enciphered_loglen hlt, enciphered_cfg]
      omega
    have hzero' : ∀ n < text.length, (((s.enciphered c k).wheel 11).advance
        (s.enciphered c k).cfg.wheelSizes[(11 : WheelIx)] n).pin = false := by
      intro n hn
      rw [enciphered_coarse, enciphered_cfg, Wheel.advance_step]
      exact hzero (n + 1) (Nat.succ_lt_succ hn)
    obtain ⟨t, ht, hwheels⟩ := ih (hs.enciphered hlt c k) hroom'
      (fun b hb => by rw [enciphered_cfg]; exact hsym b (List.mem_cons_of_mem a hb)) hzero'
    refine ⟨t, (issueAll_pseudoLprocess_cons ha hlt text).trans ht, fun w => ?_⟩
    rw [hwheels, enciphered_fine_pin_of_coarse_zero hcoarse,
      enciphered_wheel_of_coarse_zero hcoarse, enciphered_cfg]
    split_ifs
    · exact Wheel.advance_step _ _ _
    · rfl

/-- Settles O40: the coarse motor is read at one position after the other, where its pins are 0, so
the wheels that move are those of a step with the coarse motor's pin 0. -/
theorem zeroCoarsePinsFreezeTheFineMotor : Obligations.ZeroCoarsePinsFreezeTheFineMotor := by
  unfold Obligations.ZeroCoarsePinsFreezeTheFineMotor
  intro s text hinv hroom hsym hzero
  have hpin : ∀ n < text.length,
      ((s.wheel 11).advance s.cfg.wheelSizes[(11 : WheelIx)] n).pin = false :=
    fun n hn => Wheel.pin_of_getElem? (hzero n hn)
  obtain ⟨t, ht, hwheels⟩ :=
    issueAll_pseudoLprocess_of_coarse_zero ((inv_iff s).1 hinv).1 hroom hsym hpin
  simp only [mem_steppedWheels_iff] at hwheels
  refine ⟨t, ht, ?_, fun w hw => ?_, fun w hlo hhi => ?_⟩
  · simp [hwheels]
  · rw [hwheels, if_pos (hw.imp_right .inl)]
    rfl
  · have hne : ¬ w.val ≤ 4 ∧ w.val ≠ 11 := by omega
    simp only [hwheels, hne, hhi]
    cases s.currentPin 10 <;> simp [Wheel.advance]

/-! ### Which commands change a wheel -/

/-- The wheels change by the step of an enciphering L_PROC and by the writes of L_SETPOS and
L_SETPIN alone. -/
theorem CommandWrites.wheels {i : Instr} {s u : State} (hu : CommandWrites s i u) :
    u.wheels = s.wheels ∨ (∃ a c k, i = .lProc a ∧ lorenzClass s.cfg a = .symbol c k) ∨
      (∃ idx a, i = .lSetpos idx a) ∨ ∃ idx a, i = .lSetpin idx a := by
  cases hu with
  | symbolLogged ha => exact .inr (.inl ⟨_, _, _, rfl, ha⟩)
  | wheelPositioned => exact .inr (.inr (.inl ⟨_, _, rfl⟩))
  | pinSet => exact .inr (.inr (.inr ⟨_, _, rfl⟩))
  | _ => exact .inl rfl

/-- Settles O38: an error status and a response leave the wheels that the writes of the command
leave. -/
theorem wheelsMoveOnlyByNamedCommands : Obligations.WheelsMoveOnlyByNamedCommands := by
  unfold Obligations.WheelsMoveOnlyByNamedCommands
  intro i s t h hne
  obtain ⟨e, rfl⟩ | ⟨u, d, hu, rfl⟩ := exec_next_cases h
  · exact absurd rfl hne
  · exact hu.wheels.resolve_left hne

end Sys2Proof.Machine
end

section
/-!
The wheel and log commands of the Lorenz unit (spec 41 R145 to R152): the failing checks, and which
wheel or log a legal operand names.
-/

namespace Sys2Proof

/-- The word of a command with the operand `n` ends in `n`, whose two bytes are its last fields. -/
theorem Fields.toWord_of_n (op idx : Byte) (n : Data) :
    Fields.toWord ⟨op, idx, n.extractLsb' 8 8, n.extractLsb' 0 8⟩ = op ++ idx ++ n :=
  calc Fields.toWord ⟨op, idx, n.extractLsb' 8 8, n.extractLsb' 0 8⟩
      = op ++ idx ++ Fields.n ⟨op, idx, n.extractLsb' 8 8, n.extractLsb' 0 8⟩ :=
        (BitVec.append_assoc (x₁ := op ++ idx)).trans rfl
    _ = op ++ idx ++ n := by rw [n_of_bytes]

namespace Machine

/-! ### Wheels -/

theorem wheelIndex_of_toNat_eq {idx : Byte} {w : WheelIx} (h : idx.toNat = w.val) :
    wheelIndex idx = some w :=
  (wheelIndex_some idx (h ▸ w.isLt)).trans (congrArg some (Fin.ext h))

theorem wheelPosition_some {c : Config} {w : WheelIx} {a : Byte} (h : a.toNat < c.wheelSizes[w]) :
    wheelPosition c w a = some a.toNat :=
  if_pos h

/-- Settles O41: the failing checks, and the write of one field of the wheel that the index
names. -/
theorem wheelWritesSetPositionAndPin : Obligations.WheelWritesSetPositionAndPin := by
  unfold Obligations.WheelWritesSetPositionAndPin
  refine fun s idx a => ⟨rfl, rfl, fun hidx => ?_, fun w hidx => ?_⟩
  · have hbad : decide (idx.toNat ≤ 11) = false := decide_eq_false hidx.not_ge
    exact ⟨exec_of_illegal_index hbad, exec_of_illegal_index hbad⟩
  · have hw := wheelIndex_of_toNat_eq hidx
    have hlegal : decide (idx.toNat ≤ 11) = true := check_of_some (isSome_wheelIndex idx) hw
    refine ⟨fun ha => ?_, fun ha => ?_, fun ha => ?_, fun v hv => ?_⟩
    · rw [← sizeAt_of_wheelIndex hw] at ha
      exact exec_of_illegal_value hlegal (decide_eq_false ha.not_gt)
    · simp only [exec, execLSetpos, hw, wheelPosition_some ha]
      rfl
    · exact exec_of_illegal_value hlegal (decide_eq_false ha.not_ge)
    · simp only [exec, execLSetpin, hw, bitOperand_of_toNat_eq hv]
      rfl

/-- Settles O42: the failing check, and the position and the pin of the wheel that the index
names. -/
theorem wheelReadsAnswerPositionAndPin : Obligations.WheelReadsAnswerPositionAndPin := by
  unfold Obligations.WheelReadsAnswerPositionAndPin
  refine fun s idx => ⟨Fields.toWord_of_idx _ idx, Fields.toWord_of_idx _ idx, fun hidx => ?_,
    fun w hidx => ?_⟩
  · have hbad : decide (idx.toNat ≤ 11) = false := decide_eq_false hidx.not_ge
    exact ⟨exec_of_illegal_index hbad, exec_of_illegal_index hbad⟩
  · have hw := wheelIndex_of_toNat_eq hidx
    refine ⟨?_, fun v hv => ?_⟩
    · simp only [exec, execLGetpos, hw]
      rfl
    · have hpin : s.currentPin w = v := Wheel.pin_of_getElem? hv
      simp only [exec, execLGetpin, hw, hpin, setWidth_ofBool]

/-! ### Logs -/

/-- Settles O43: the two commands' equations, by whether the new length is above the old. -/
theorem logLengthIsReadAndLowered : Obligations.LogLengthIsReadAndLowered := by
  unfold Obligations.LogLengthIsReadAndLowered
  refine fun s n => ⟨rfl, Fields.toWord_of_n _ _ n, rfl, fun hlt => ?_, fun hle => ?_⟩
  · exact if_pos hlt
  · exact if_neg hle.not_gt

theorem logIndex_of_le {idx : Byte} (h : idx.toNat ≤ 1) :
    logIndex idx = some (if idx = 0 then .pt else .ct) := by
  obtain rfl | rfl : idx = 0 ∨ idx = 1 := by bv_omega
  · rfl
  · rfl

/-- Settles O44: the failing checks, and the byte of the log that the index names. -/
theorem logrdReadsALogByte : Obligations.LogrdReadsALogByte := by
  unfold Obligations.LogrdReadsALogByte
  refine fun s idx n => ⟨Fields.toWord_of_n _ _ n, fun hidx => ?_, fun hidx hlen => ?_,
    fun hidx hlen hdepth => ?_, fun l v hv => ?_⟩
  · exact exec_of_illegal_index (decide_eq_false hidx.not_ge)
  · simp only [exec, execLLogrd, logIndex_of_le hidx]
    exact if_pos hlen
  · simp only [exec, execLLogrd, logIndex_of_le hidx, if_neg hlen.not_ge, memRead_ok s _ _ hdepth]
  · rw [State.logByte, hv, Option.getD_some]

end Machine

end Sys2Proof
end

section
/-!
The Baudot lookups (spec 42 R160 to R162). In an injective table the lookup of a symbol and the
lookup of a code are two readings of one relation, `c.baudot[k.toFin] = some b`, so each undoes the
other.
-/

namespace Sys2Proof.Machine

/-! ### The table -/

/-- An injective table gives a symbol at most one code (spec 00 R10). -/
theorem code_eq_of_baudotInjective {c : Config} (hc : c.BaudotInjective) {k l : Code} {b : Byte}
    (hk : c.baudot[k.toFin] = some b) (hl : c.baudot[l.toFin] = some b) : k = l := by
  have hpair := List.pairwise_iff_getElem.1 (List.pairwise_filterMap.1 hc)
  have hnot_lt : ∀ {i j : Code}, c.baudot[i.toFin] = some b → c.baudot[j.toFin] = some b →
      ¬ i < j :=
    fun {i j} hi hj hlt => hpair i.toNat j.toNat (by simp [i.isLt]) (by simp [j.isLt]) hlt
      b (by simpa using hi) b (by simpa using hj) rfl
  exact BitVec.le_antisymm (BitVec.not_lt.1 (hnot_lt hl hk)) (BitVec.not_lt.1 (hnot_lt hk hl))

/-- In an injective table the lookup finds the code that maps to the byte. -/
theorem baudotCode_eq_some_iff {c : Config} (hc : c.BaudotInjective) {b : Byte} {k : Code} :
    baudotCode c b = some k ↔ c.baudot[k.toFin] = some b := by
  refine ⟨baudot_of_baudotCode, fun hk => ?_⟩
  cases hl : baudotCode c b with
  | none => exact absurd hk ((baudotCode_eq_none_iff c b).1 hl k)
  | some l => rw [code_eq_of_baudotInjective hc (baudot_of_baudotCode hl) hk]

theorem codeOperand_of_toNat_eq {a : Byte} {k : Code} (h : a.toNat = k.toNat) :
    codeOperand a = some k := by
  have hlt : a.toNat < 32 := h ▸ k.isLt
  have hk : a.setWidth 5 = k := by bv_omega
  rw [codeOperand, if_pos hlt, hk]

/-! ### One equation per outcome -/

section
variable {s : State} {a : Byte}

theorem exec_bEnc_of_code {k : Code} (hk : baudotCode s.cfg a = some k) :
    exec (.bEnc a) s = .next (s.respond (k.setWidth 16)) := by
  simp only [exec, execBEnc, hk]

theorem exec_bEnc_of_no_code (hk : baudotCode s.cfg a = none) :
    exec (.bEnc a) s = .next (s.respond 0xFFFF) := by
  simp only [exec, execBEnc, hk]

theorem exec_bDec_of_code {k : Code} (hk : a.toNat = k.toNat) :
    exec (.bDec a) s = .next (s.respond ((baudotSymbol s.cfg k).setWidth 16)) := by
  simp only [exec, execBDec, codeOperand_of_toNat_eq hk]

/-- B_DEC of a mapped code responds its symbol. -/
theorem exec_bDec_of_symbol {k : Code} (hk : s.cfg.baudot[k.toFin] = some a) :
    exec (.bDec (k.setWidth 8)) s = .next (s.respond (a.setWidth 16)) := by
  have hcode : (k.setWidth 8).toNat = k.toNat := by bv_omega
  rw [exec_bDec_of_code hcode, baudotSymbol, hk, Option.getD_some]

end

/-! ### Which response names a code -/

theorem okResponse_injective : Function.Injective okResponse := fun d d' h => by
  simpa using congrArg responseData h

/-- B_ENC responds a code exactly when that is the code of its byte: no code reads as 0xFFFF. -/
theorem baudotCode_of_exec_bEnc {s t : State} {a : Byte} {k : Code}
    (h : exec (.bEnc a) s = .next t) (hrsp : t.rsp = some (okResponse (k.setWidth 16))) :
    baudotCode s.cfg a = some k := by
  have hdata : ∀ d, exec (.bEnc a) s = .next (s.respond d) → d = k.setWidth 16 := by
    intro d hd
    obtain rfl := Host.Outcome.next.inj (hd.symm.trans h)
    exact okResponse_injective (Option.some.inj hrsp)
  cases hl : baudotCode s.cfg a with
  | none =>
    have hno_code := hdata _ (exec_bEnc_of_no_code hl)
    bv_omega
  | some l =>
    have hcode := hdata _ (exec_bEnc_of_code hl)
    exact congrArg some (by bv_omega)

/-! ### Settled -/

/-- Settles O45: the two answers of B_ENC by whether the lookup finds a code, and the failing check
and the symbol of B_DEC. -/
theorem baudotLookupsAnswerTheTable : Obligations.BaudotLookupsAnswerTheTable := by
  unfold Obligations.BaudotLookupsAnswerTheTable
  refine fun s a => ⟨congrArg (· ++ a) (show 0x30#8 ++ 0#8 ++ 0#8 = 0x300000#24 from rfl),
    congrArg (· ++ a) (show 0x31#8 ++ 0#8 ++ 0#8 = 0x310000#24 from rfl),
    fun hc k hk => ?_, fun hno => ?_, fun ha => ?_, fun k hk => ?_⟩
  · exact exec_bEnc_of_code ((baudotCode_eq_some_iff hc.baudot_injective).2 hk)
  · exact exec_bEnc_of_no_code ((baudotCode_eq_none_iff s.cfg a).2 hno)
  · exact exec_of_illegal_value rfl (decide_eq_false ha.not_ge)
  · exact exec_bDec_of_code hk

/-- Settles O46: a code that B_ENC responds maps to its byte, and the code that maps to a byte is
the one the lookup finds. -/
theorem baudotLookupsRoundTrip : Obligations.BaudotLookupsRoundTrip := by
  unfold Obligations.BaudotLookupsRoundTrip
  intro s hc
  refine ⟨fun a k t h hrsp => ?_, fun k a t hk h => ⟨?_, ?_⟩⟩
  · exact exec_bDec_of_symbol (baudot_of_baudotCode (baudotCode_of_exec_bEnc h hrsp))
  · obtain rfl := Host.Outcome.next.inj ((exec_bDec_of_symbol hk).symm.trans h)
    rfl
  · exact exec_bEnc_of_code ((baudotCode_eq_some_iff hc.baudot_injective).2 hk)

end Sys2Proof.Machine
end

section
/-!
The control commands (spec 42 R163 to R166): their answers, what a nonzero unused field of their
words raises, and that no command changes the parameters that INFO reads.
-/

namespace Sys2Proof

/-- The low 24 bits of a word whose other fields are zero are zero. -/
theorem extractLsb'_eq_zero_of_fields {w : Word} (hidx : (Fields.ofWord w).idx = 0)
    (hb : (Fields.ofWord w).b = 0) (ha : (Fields.ofWord w).a = 0) : w.extractLsb' 0 24 = 0#24 := by
  apply BitVec.eq_of_getLsbD_eq
  intro i hi
  rw [← fields_toWord_ofWord w]
  simp only [BitVec.getLsbD_extractLsb', toWord_getLsbD, hidx, hb, ha]
  grind

/-- The first three opcodes head rows that use no field (spec 30 R74). -/
theorem row_of_op_le_two {op : Byte} (h : op.toNat ≤ 2) : ∃ r ∈ opcodeTable, r.op = op ∧
    r.usesIdx = false ∧ r.usesB = false ∧ r.usesA = false := by
  obtain rfl | rfl | rfl : op = 0 ∨ op = 1 ∨ op = 2 := by bv_omega
  all_goals decide

/-- A word of NOP, GETERR or CLRERR with a nonzero bit in 23:0 is no command (spec 30 R75). -/
theorem decode_of_op_le_two {w : Word} (hop : (Fields.ofWord w).op.toNat ≤ 2)
    (hw : w.extractLsb' 0 24 ≠ 0#24) : decode w = .error .rsvd := by
  obtain ⟨r, hr, hrop, hidx, hb, ha⟩ := row_of_op_le_two hop
  rw [decode_of_op_eq hr hrop, if_neg]
  intro hz
  simp only [OpRow.unusedZero, hidx, hb, ha, Bool.false_or, Bool.and_eq_true, beq_iff_eq] at hz
  obtain ⟨⟨hidx0, hb0⟩, ha0⟩ := hz
  exact hw (extractLsb'_eq_zero_of_fields hidx0 hb0 ha0)

namespace Machine

/-- A response with status OK is its data, zero-extended (spec 30 R72). -/
theorem okResponse_eq_setWidth (d : Data) : okResponse d = d.setWidth 32 := by
  apply BitVec.eq_of_getLsbD_eq
  intro i hi
  simp only [okResponse, responseWord_getLsbD, BitVec.getLsbD_setWidth]
  grind

/-- The writes of every command keep the parameters. -/
theorem CommandWrites.cfg_eq {i : Instr} {s u : State} (hu : CommandWrites s i u) :
    u.cfg = s.cfg := by
  cases hu with
  | symbolLogged => rw [stepWheels_frame]; rfl
  | _ => rfl

/-- Settles O11: each command's one answer, and a word with a nonzero bit in 23:0 decodes to no
command. -/
theorem controlCommandsDoTheirRule : Obligations.ControlCommandsDoTheirRule := by
  unfold Obligations.ControlCommandsDoTheirRule
  refine ⟨rfl, rfl, rfl, fun s => rfl, fun s => ?_, fun s => rfl, fun s w hop hw => ?_⟩
  · have hrsp : okResponse (s.errf.setWidth 16) = s.errf.setWidth 32 := by
      rw [okResponse_eq_setWidth, BitVec.setWidth_setWidth (by decide)]
    simp only [exec, execGeterr, State.respond, hrsp]
  · exact runWord_of_decode_error (decode_of_op_le_two hop hw) s

/-- Settles O12: the answer of each information select, the failing check, and an error status and a
response leave the parameters that the writes of the command leave. -/
theorem infoReadsTheParameters : Obligations.InfoReadsTheParameters := by
  unfold Obligations.InfoReadsTheParameters
  refine ⟨Fields.toWord_of_idx _, fun s => rfl, fun s => rfl, fun s idx hidx => ?_,
    fun i s t h => ?_⟩
  · exact exec_of_illegal_index (decide_eq_false hidx.not_ge)
  · obtain ⟨e, rfl⟩ | ⟨u, d, hu, rfl⟩ := exec_next_cases h
    · rfl
    · exact hu.cfg_eq

end Machine

end Sys2Proof
end

section
/-!
Errors and stops (spec 60): what a raised error writes (R173, R174), and that no step stops while
the log length is within its bound (R173, R177).
-/

namespace Sys2Proof.Machine

/-! ### What an error writes -/

/-- An error's flag is one bit: bit k-1 for status code k (spec 60 R174). -/
theorem flag_getLsbD (e : ErrorStatus) {k : Nat} (hk : k < 7) :
    e.flag.getLsbD k = decide (e.code.toNat = k + 1) := by
  cases e <;> decide +revert

/-- A raised error in full: the response {code, 0x00, 0x0000} and the one flag (spec 60 R173). -/
theorem raise_eq (s : State) (e : ErrorStatus) :
    s.raise e = { s with
      rsp := some (e.code ++ 0#24), errf := s.errf ||| 1#7 <<< (e.code.toNat - 1) } := by
  cases e <;> rfl

/-- A word whose response has a status other than OK raised an error and did nothing else. -/
theorem eq_raise_of_status_ne_zero {w : Word} {s t : State} {r : Word} (h : runWord w s = .next t)
    (hr : t.rsp = some r) (hstatus : responseStatus r ≠ 0) :
    ∃ e, r = errorResponse e ∧ t = s.raise e := by
  obtain ⟨e, rfl⟩ | ⟨u, d, rfl⟩ := runWord_next_cases h
  · exact ⟨e, (Option.some.inj hr).symm, rfl⟩
  · obtain rfl : okResponse d = r := Option.some.inj hr
    exact absurd (status_okResponse d) hstatus

/-- Settles O7: a word with an error status raised that error, which writes its response and one
flag. -/
theorem errorsAreAllOrNothing : Obligations.ErrorsAreAllOrNothing := by
  unfold Obligations.ErrorsAreAllOrNothing
  refine ⟨fun w s t r h hr hstatus => ?_, fun s e k hk => ?_⟩
  · obtain ⟨e, rfl, rfl⟩ := eq_raise_of_status_ne_zero h hr hstatus
    exact ⟨e, status_errorResponse e, raise_eq s e⟩
  · rw [raise_errf, BitVec.getLsbD_or, flag_getLsbD e hk]

/-! ### No step stops -/

section
variable {s : State} (hlen : s.loglen.toNat ≤ s.cfg.logDepth)
include hlen

/-- The log length within its bound leaves a command no fault to end in. -/
theorem CommandEnds.answers {i : Instr} {r : Answer} (h : CommandEnds s i r) :
    ∃ t, r = .next t := by
  cases h with
  | raises e => exact ⟨_, rfl⟩
  | responds => exact ⟨_, rfl⟩
  | faults hover => exact absurd hlen hover.not_ge

theorem runWord_answers (w : Word) : ∃ t, runWord w s = .next t := by
  unfold runWord
  split
  · exact ⟨_, rfl⟩
  · exact (exec_ends _ s).answers hlen

/-- Of the edges only the acceptance of a command runs anything that could stop. -/
theorem edge_answers (p : PortIn) : ∃ t, s.edge p = .next t := by
  rcases edge_cases s p with ⟨-, h⟩ | ⟨-, -, -, h⟩ | ⟨-, -, -, h⟩ | ⟨_, -, -, -, -, h⟩ |
    ⟨_, -, -, -, -, h⟩ | ⟨_, -, -, -, h⟩ <;> rw [h]
  · exact ⟨_, rfl⟩
  · exact runWord_answers (s := s.startLatency) hlen p.cmd
  · exact ⟨_, rfl⟩
  · exact ⟨_, rfl⟩
  · exact ⟨_, rfl⟩
  · exact ⟨_, rfl⟩

end

/-- Settles O55: the invariant makes the configuration well-formed, so the step is no refusal, and
bounds the log length, so no command faults. -/
theorem stepNeverStopsInTheInvariant : Obligations.StepNeverStopsInTheInvariant := by
  unfold Obligations.StepNeverStopsInTheInvariant
  intro s h
  rw [step_eq_edge s ((wf_iff _).2 h.cfg_wellFormed)]
  exact edge_answers (s := s.dropPins) h.loglen_le s.pinsNow

end Sys2Proof.Machine
end

section
/-!
The port, edge by edge (spec 70 R204, R205): what the step does at each kind of edge without `rst`,
by the state and the inputs at the head of the list; and what a run of the edges of one latency
leaves.
-/

namespace Sys2Proof.Machine

/-- The step samples the inputs at the head of the list. -/
theorem step_of_pins {s : State} {p : PortIn} {rest : List PortIn} (hwf : s.cfg.wf = true)
    (hpins : s.pins = p :: rest) : step s = State.edge { s with pins := rest } p := by
  have hnow : s.pinsNow = p := by simp [State.pinsNow, hpins]
  have hdrop : s.dropPins = { s with pins := rest } := by simp [State.dropPins, hpins]
  rw [step_eq_edge s hwf, hnow, hdrop]

/-! ### The kinds of edge -/

section
variable {s : State} {p : PortIn} {rest : List PortIn} (hwf : s.cfg.wf = true)
  (hpins : s.pins = p :: rest) (hrst : p.rst = false)
include hwf hpins hrst

theorem step_of_offer (hrsp : s.rsp = none) (hvalid : p.cmdValid = true) :
    step s = runWord p.cmd { s with
      pins := rest, wait := s.latencies.headD 0, latencies := s.latencies.tail } := by
  simp [step_of_pins hwf hpins, State.edge, hrst, hrsp, hvalid, State.startLatency]

theorem step_of_no_offer (hrsp : s.rsp = none) (hvalid : p.cmdValid = false) :
    step s = .next { s with pins := rest } := by
  simp [step_of_pins hwf hpins, State.edge, hrst, hrsp, hvalid]

variable {r : Word} (hrsp : s.rsp = some r)
include hrsp

theorem step_of_latency {n : Nat} (hwait : s.wait = n + 1) :
    step s = .next { s with pins := rest, wait := n } := by
  simp [step_of_pins hwf hpins, State.edge, hrst, hrsp, hwait, State.countDown]

theorem step_of_held (hwait : s.wait = 0) (hready : p.rspReady = false) :
    step s = .next { s with pins := rest } := by
  simp [step_of_pins hwf hpins, State.edge, hrst, hrsp, hwait, hready]

theorem step_of_taken (hwait : s.wait = 0) (hready : p.rspReady = true) :
    step s = .next (State.takeResponse { s with pins := rest } r) := by
  simp [step_of_pins hwf hpins, State.edge, hrst, hrsp, hwait, hready]

end

theorem runWord_of_decode_ok {w : Word} {i : Instr} (h : decode w = .ok i) (s : State) :
    runWord w s = exec i s := by
  simp only [runWord, h]

/-- Settles O57: the edge of an offered word runs it with the latency started, and a word that
decodes runs as its command. -/
theorem stepRunsTheDecodedCommand : Obligations.StepRunsTheDecodedCommand := by
  unfold Obligations.StepRunsTheDecodedCommand
  intro s p rest hwf hrsp hpins hrst hvalid
  have hstep := step_of_offer hwf hpins hrst hrsp hvalid
  exact ⟨fun i hi => hstep.trans (runWord_of_decode_ok hi _),
    fun e he => hstep.trans (runWord_of_decode_error he _)⟩

/-! ### The outputs -/

theorem outputs_of_idle {s : State} (hrsp : s.rsp = none) :
    s.cmdReady = true ∧ s.rspValid = false := by
  simp [State.cmdReady, State.rspValid, hrsp]

theorem outputs_of_in_flight {s : State} {r : Word} (hrsp : s.rsp = some r) :
    s.rspValid = (s.wait == 0) ∧ s.cmdReady = false := by
  simp [State.cmdReady, State.rspValid, hrsp]

/-- Settles O58: one kind of edge for each clause, with the outputs of an idle block or of one with
a command in flight. -/
theorem portHoldsOneCommandInFlight : Obligations.PortHoldsOneCommandInFlight := by
  unfold Obligations.PortHoldsOneCommandInFlight
  intro s p rest hwf hpins hrst
  refine ⟨fun hrsp => ?_, fun r n hrsp hwait => ?_, fun r hrsp hwait hready => ?_,
    fun r hrsp hwait hready => ?_⟩
  · obtain ⟨hcmd, hvalid⟩ := outputs_of_idle hrsp
    exact ⟨hcmd, hvalid, step_of_no_offer hwf hpins hrst hrsp⟩
  · obtain ⟨hvalid, hcmd⟩ := outputs_of_in_flight hrsp
    exact ⟨by rw [hvalid, hwait]; rfl, hcmd, step_of_latency hwf hpins hrst hrsp hwait⟩
  · obtain ⟨hvalid, hcmd⟩ := outputs_of_in_flight hrsp
    exact ⟨by rw [hvalid, hwait]; rfl, hcmd, step_of_held hwf hpins hrst hrsp hwait hready⟩
  · obtain ⟨hvalid, hcmd⟩ := outputs_of_in_flight hrsp
    exact ⟨by rw [hvalid, hwait]; rfl, hcmd, _, step_of_taken hwf hpins hrst hrsp hwait hready, rfl,
      outputs_of_idle rfl⟩

/-! ### The edges of one latency -/

theorem run_succ {s t : State} (h : step s = .next t) (n : Nat) :
    Host.Core.run core (n + 1) s = Host.Core.run core n t := by
  have hcore : core.step s = .next t := h
  simp only [Host.Core.run, hcore]

/-- While the latency runs, edges without `rst` only count it down (spec 70 R204). -/
theorem run_latency {s : State} {r : Word} {before rest : List PortIn} (hwf : s.cfg.wf = true)
    (hrsp : s.rsp = some r) (hpins : s.pins = before ++ rest) (hlen : before.length = s.wait)
    (hrst : ∀ q ∈ before, q.rst = false) (n : Nat) :
    Host.Core.run core (s.wait + n) s =
      Host.Core.run core n { s with pins := rest, wait := 0 } := by
  induction before generalizing s with
  | nil =>
    have hs : { s with pins := rest, wait := 0 } = s := by
      rw [show rest = s.pins from hpins.symm, show 0 = s.wait from hlen]
    rw [hs, ← hlen, List.length_nil, Nat.zero_add]
  | cons q before ih =>
    have hwait : s.wait = before.length + 1 := hlen.symm
    have hstep := step_of_latency hwf hpins (hrst q List.mem_cons_self) hrsp hwait
    rw [hwait, Nat.add_right_comm, run_succ hstep]
    exact ih (s := { s with pins := before ++ rest, wait := before.length }) hwf hrsp rfl rfl
      fun q' hq' => hrst q' (List.mem_cons_of_mem q hq')

/-- After the latency a ready host takes the response at the next edge (spec 70 R205). -/
theorem run_latency_taken {s : State} {r : Word} {before rest : List PortIn} {p : PortIn}
    (hwf : s.cfg.wf = true) (hrsp : s.rsp = some r) (hpins : s.pins = before ++ p :: rest)
    (hlen : before.length = s.wait) (hbefore : ∀ q ∈ before, q.rst = false) (hrst : p.rst = false)
    (hready : p.rspReady = true) :
    Host.Core.run core (s.wait + 1) s =
      .next (State.takeResponse { s with pins := rest, wait := 0 } r) := by
  have hstep := step_of_taken (s := { s with pins := p :: rest, wait := 0 }) hwf rfl hrst hrsp rfl
    hready
  rw [run_latency hwf hrsp hpins hlen hbefore, run_succ hstep]
  rfl

/-- Settles O59: the response is taken at the edge after its latency, which leaves none in
flight. -/
theorem responseIsTakenAfterItsLatency : Obligations.ResponseIsTakenAfterItsLatency := by
  unfold Obligations.ResponseIsTakenAfterItsLatency
  intro s r before rest p hwf hrsp hpins hlen hbefore hrst hready
  exact ⟨_, run_latency_taken hwf hrsp hpins hlen hbefore hrst hready, rfl, rfl, rfl, rfl⟩

end Sys2Proof.Machine
end

section
/-!
What a command reads and writes (spec 70 R207, R209). Every command acts on one part of the state:
the Enigma unit, the Lorenz unit, or the error flags. Said once as an equation over every rest of
the state, this gives that the units share nothing and that no command looks at the port.
-/

namespace Sys2Proof.Machine

/-! ### The parts -/

/-- The state `u` with the configuration and the Enigma unit of `s`. -/
def State.withEnigma (u s : State) : State :=
  { u with cfg := s.cfg, slots := s.slots, refl := s.refl, plug := s.plug }

/-- The state `u` with the configuration and the Lorenz unit of `s`. -/
def State.withLorenz (u s : State) : State :=
  { u with
    cfg := s.cfg, wheels := s.wheels, loglen := s.loglen, logPT := s.logPT, logCT := s.logCT }

/-- The state `u` with the configuration and the error flags of `s`. -/
def State.withFlags (u s : State) : State := { u with cfg := s.cfg, errf := s.errf }

/-- The state `u` with other inputs, another latency and other latencies to come. -/
def State.onPort (u : State) (ins : List PortIn) (n : Nat) (ls : List Nat) : State :=
  { u with pins := ins, wait := n, latencies := ls }

@[simp] theorem withEnigma_cfg (u s : State) : (u.withEnigma s).cfg = s.cfg := rfl
@[simp] theorem withEnigma_enigmaReady (u s : State) :
    (u.withEnigma s).enigmaReady = s.enigmaReady := rfl
@[simp] theorem withEnigma_partner (u s : State) (x : Letter) :
    (u.withEnigma s).partner x = s.partner x := rfl
@[simp] theorem withLorenz_cfg (u s : State) : (u.withLorenz s).cfg = s.cfg := rfl
@[simp] theorem withLorenz_logByte (u s : State) (l : LogSel) (n : Nat) :
    (u.withLorenz s).logByte l n = s.logByte l n := by cases l <;> rfl
@[simp] theorem withFlags_cfg (u s : State) : (u.withFlags s).cfg = s.cfg := rfl

/-! ### Acting on a part -/

/-- `f u` is what a command answers in a state whose part is that of `s` and whose rest is that of
`u`. The command acts on the part when the rest settles neither how it ends nor what it responds,
and a response leaves the rest as it is. -/
inductive ActsOn (part : State → State → State) (s : State) (f : State → Answer) : Prop
  | responds (t : State) (d : Data) (h : ∀ u, f u = .next ((part u t).respond d))
  | raises (e : ErrorStatus) (h : ∀ u, f u = .next ((part u s).raise e))
  | faults (r : Fault) (h : ∀ u, f u = .fault r)

/-- The part and the response that such a command leaves are the same whatever the rest is, and of
the rest it writes the error flags alone. -/
theorem ActsOn.next_eq {part : State → State → State} {s : State} {f : State → Answer}
    (h : ActsOn part s f) : ∃ t r, ∀ u v, f u = .next v →
      ∃ flags, v = { part u t with rsp := r, errf := flags } := by
  cases h with
  | responds t d h => exact ⟨t, some (okResponse d), fun u v hv =>
      ⟨_, (Host.Outcome.next.inj ((h u).symm.trans hv)).symm⟩⟩
  | raises e h => exact ⟨s, some (errorResponse e), fun u v hv =>
      ⟨_, (Host.Outcome.next.inj ((h u).symm.trans hv)).symm⟩⟩
  | faults r h => exact ⟨s, none, fun u v hv => nomatch (h u).symm.trans hv⟩

/-! ### The Enigma commands -/

theorem exec_actsOn_enigma {i : Instr} (hi : i.isEnigma = true) (s : State) :
    ActsOn State.withEnigma s fun u => exec i (u.withEnigma s) := by
  cases i with
  | eEnter a =>
    simp only [exec, execEEnter, withEnigma_cfg, withEnigma_enigmaReady]
    cases enigmaLetter s.cfg a with
    | none => exact .responds s _ fun _ => rfl
    | some x =>
      by_cases hready : s.enigmaReady = true
      · exact .responds s.stepRotors (enigmaData true (letterByte (s.stepRotors.transform x)))
          fun _ => if_pos hready
      · exact .raises .nocfg fun _ => if_neg hready
  | eXform a =>
    simp only [exec, execEXform, withEnigma_cfg, withEnigma_enigmaReady]
    cases enigmaLetter s.cfg a with
    | none => exact .responds s _ fun _ => rfl
    | some x =>
      by_cases hready : s.enigmaReady = true
      · exact .responds s (enigmaData true (letterByte (s.transform x))) fun _ => if_pos hready
      · exact .raises .nocfg fun _ => if_neg hready
  | eSetrot idx a =>
    simp only [exec, execESetrot, withEnigma_cfg]
    cases slotIndex s.cfg idx with
    | none => exact .raises .index fun _ => rfl
    | some n =>
      cases rotorId a with
      | none => exact .raises .value fun _ => rfl
      | some k => exact .responds (s.setSlot n ⟨true, k, 0, false⟩) 0 fun _ => rfl
  | eGetrot idx =>
    simp only [exec, execEGetrot, withEnigma_cfg]
    cases slotIndex s.cfg idx with
    | none => exact .raises .index fun _ => rfl
    | some n =>
      exact .responds s
        (if (s.slot n).fitted then BitVec.ofNat 16 (s.slot n).id.val else 0xFFFF) fun _ => rfl
  | eSetpos idx a =>
    simp only [exec, execESetpos, withEnigma_cfg]
    cases slotIndex s.cfg idx with
    | none => exact .raises .index fun _ => rfl
    | some n =>
      cases letterOperand a with
      | none => exact .raises .value fun _ => rfl
      | some p => exact .responds (s.setSlot n { s.slot n with pos := p }) 0 fun _ => rfl
  | eGetpos idx =>
    simp only [exec, execEGetpos, withEnigma_cfg]
    cases slotIndex s.cfg idx with
    | none => exact .raises .index fun _ => rfl
    | some n => exact .responds s (BitVec.ofNat 16 (s.slot n).pos.val) fun _ => rfl
  | eSetlat idx a =>
    simp only [exec, execESetlat, withEnigma_cfg]
    cases slotIndex s.cfg idx with
    | none => exact .raises .index fun _ => rfl
    | some n =>
      cases bitOperand a with
      | none => exact .raises .value fun _ => rfl
      | some v => exact .responds (s.setSlot n { s.slot n with lat := v }) 0 fun _ => rfl
  | eGetlat idx =>
    simp only [exec, execEGetlat, withEnigma_cfg]
    cases slotIndex s.cfg idx with
    | none => exact .raises .index fun _ => rfl
    | some n => exact .responds s ((BitVec.ofBool (s.slot n).lat).setWidth 16) fun _ => rfl
  | eSetref a =>
    simp only [exec, execESetref]
    cases reflectorId a with
    | none => exact .raises .value fun _ => rfl
    | some k => exact .responds (s.setRefl ⟨true, k⟩) 0 fun _ => rfl
  | eGetref =>
    exact .responds s (if s.refl.fitted then BitVec.ofNat 16 s.refl.id.val else 0xFFFF) fun _ => rfl
  | eAddpr a b =>
    simp only [exec, execEAddpr, withEnigma_partner]
    cases letterOperand a with
    | none => exact .raises .value fun _ => rfl
    | some x =>
      cases letterOperand b with
      | none => exact .raises .value fun _ => rfl
      | some y =>
        by_cases hxy : x = y
        · exact .raises .value fun _ => if_pos hxy
        · by_cases hpaired : s.partner x ≠ x ∨ s.partner y ≠ y
          · exact .responds s 0 fun _ => (if_neg hxy).trans (if_pos hpaired)
          · exact .responds ((s.setPartner x y).setPartner y x) 1 fun _ =>
              (if_neg hxy).trans (if_neg hpaired)
  | eRempr a b =>
    simp only [exec, execERempr, withEnigma_partner]
    cases letterOperand a with
    | none => exact .raises .value fun _ => rfl
    | some x =>
      cases letterOperand b with
      | none => exact .raises .value fun _ => rfl
      | some y =>
        by_cases hpair : x ≠ y ∧ s.partner x = y
        · exact .responds ((s.setPartner x x).setPartner y y) 1 fun _ => if_pos hpair
        · exact .responds s 0 fun _ => if_neg hpair
  | eGetplg a =>
    simp only [exec, execEGetplg, withEnigma_partner]
    cases letterOperand a with
    | none => exact .raises .value fun _ => rfl
    | some x => exact .responds s _ fun _ => rfl
  | _ => cases hi

/-! ### The Lorenz commands -/

/-- An append to the logs and what is done after it act on the Lorenz unit when what they leave of
it is the same beside every rest. -/
theorem logged_actsOn {s t : State} {p c : Byte} {after : State → State} {d : Data}
    (hafter : ∀ u : State, after ((u.withLorenz s).appended p c) = u.withLorenz t) :
    ActsOn State.withLorenz s fun u => (u.withLorenz s).logged p c after d := by
  rcases lt_trichotomy s.loglen.toNat s.cfg.logDepth with hroom | hfull | hover
  · refine .responds t d fun u => (logged_of_room (u.withLorenz s) p c after d hroom).trans ?_
    rw [hafter]
  · exact .raises .logfull fun u => logged_of_full _ _ _ _ _ hfull
  · refine .faults .noLogEntry fun u => ?_
    rcases logged_cases (u.withLorenz s) p c after d with ⟨hfull, -⟩ | ⟨hroom, -⟩ | ⟨-, hfault⟩
    · exact absurd hfull hover.ne'
    · exact absurd hroom hover.not_gt
    · exact hfault

theorem withLorenz_stepWheels (u s : State) :
    (u.withLorenz s).stepWheels = u.withLorenz s.stepWheels := by
  rw [stepWheels_frame (u.withLorenz s), stepWheels_frame s,
    stepWheels_wheels_congr (s := s) (u := u.withLorenz s) rfl rfl]
  rfl

theorem execLProc_actsOn (a : Byte) (s : State) :
    ActsOn State.withLorenz s fun u => execLProc a (u.withLorenz s) := by
  simp only [execLProc, withLorenz_cfg]
  cases lorenzClass s.cfg a with
  | newline => exact logged_actsOn (t := s.appended newlineByte newlineByte) fun _ => rfl
  | other => exact .responds s _ fun _ => rfl
  | symbol c k =>
    exact logged_actsOn (c := s.encryptChar k) (d := lorenzData .enciphered (s.encryptChar k))
      fun u => withLorenz_stepWheels u (s.appended c (s.encryptChar k))

theorem execLLogrd_actsOn (idx : Byte) (n : Data) (s : State) :
    ActsOn State.withLorenz s fun u => execLLogrd idx n (u.withLorenz s) := by
  simp only [execLLogrd, State.memRead, withLorenz_cfg, withLorenz_logByte]
  cases logIndex idx with
  | none => exact .raises .index fun _ => rfl
  | some l =>
    by_cases hlen : s.loglen.toNat ≤ n.toNat
    · exact .raises .logrange fun _ => if_pos hlen
    · by_cases hn : n.toNat < s.cfg.logDepth
      · refine .responds s ((s.logByte l n.toNat).setWidth 16) fun _ => (if_neg hlen).trans ?_
        rw [if_pos hn]
      · refine .faults .noLogEntry fun _ => (if_neg hlen).trans ?_
        rw [if_neg hn]

theorem exec_actsOn_lorenz {i : Instr} (hi : i.isLorenz = true) (s : State) :
    ActsOn State.withLorenz s fun u => exec i (u.withLorenz s) := by
  cases i with
  | lProc a => exact execLProc_actsOn a s
  | lXform a =>
    simp only [exec, execLXform, withLorenz_cfg]
    cases lorenzClass s.cfg a with
    | newline => exact .responds s _ fun _ => rfl
    | other => exact .responds s _ fun _ => rfl
    | symbol c k => exact .responds s (lorenzData .enciphered (s.encryptChar k)) fun _ => rfl
  | lSetpos idx a =>
    simp only [exec, execLSetpos, withLorenz_cfg]
    cases wheelIndex idx with
    | none => exact .raises .index fun _ => rfl
    | some w =>
      cases hp : wheelPosition s.cfg w a with
      | none => exact .raises .value fun _ => by simp only [hp]
      | some p =>
        exact .responds (s.setWheel w { s.wheel w with pos := p }) 0 fun _ => by simp only [hp]; rfl
  | lGetpos idx =>
    simp only [exec, execLGetpos]
    cases wheelIndex idx with
    | none => exact .raises .index fun _ => rfl
    | some w => exact .responds s (BitVec.ofNat 16 (s.wheel w).pos) fun _ => rfl
  | lSetpin idx a =>
    simp only [exec, execLSetpin]
    cases wheelIndex idx with
    | none => exact .raises .index fun _ => rfl
    | some w =>
      cases bitOperand a with
      | none => exact .raises .value fun _ => rfl
      | some v => exact .responds (s.setWheel w ((s.wheel w).setPin v)) 0 fun _ => rfl
  | lGetpin idx =>
    simp only [exec, execLGetpin]
    cases wheelIndex idx with
    | none => exact .raises .index fun _ => rfl
    | some w => exact .responds s ((BitVec.ofBool (s.currentPin w)).setWidth 16) fun _ => rfl
  | lLoglen => exact .responds s s.loglen fun _ => rfl
  | lLogrd idx n => exact execLLogrd_actsOn idx n s
  | lLogtrn n =>
    by_cases hn : s.loglen.toNat < n.toNat
    · exact .raises .logrange fun _ => if_pos hn
    · exact .responds (s.setLoglen n) 0 fun _ => if_neg hn
  | _ => cases hi

/-- Settles O49: a command of a unit acts on that unit, so of the other unit it writes nothing, and
what it leaves in its own and responds does not depend on the rest. -/
theorem unitsDoNotInterfere : Obligations.UnitsDoNotInterfere := by
  unfold Obligations.UnitsDoNotInterfere
  refine ⟨fun i s t hi ht => ?_, fun i s t hi ht => ?_,
    fun i s u s' u' hi hcfg hslots hrefl hplug hs' hu' => ?_,
    fun i s u s' u' hi hcfg hwheels hloglen hpt hct hs' hu' => ?_⟩
  · obtain ⟨_, _, h⟩ := (exec_actsOn_enigma hi s).next_eq
    obtain ⟨_, rfl⟩ := h s t ht
    exact ⟨rfl, rfl, rfl, rfl⟩
  · obtain ⟨_, _, h⟩ := (exec_actsOn_lorenz hi s).next_eq
    obtain ⟨_, rfl⟩ := h s t ht
    exact ⟨rfl, rfl, rfl⟩
  · obtain ⟨_, _, h⟩ := (exec_actsOn_enigma hi s).next_eq
    have hu : u.withEnigma s = u := by rw [State.withEnigma, hcfg, hslots, hrefl, hplug]
    obtain ⟨_, rfl⟩ := h s s' hs'
    obtain ⟨_, rfl⟩ := h u u' (hu.symm ▸ hu')
    exact ⟨rfl, rfl, rfl, rfl⟩
  · obtain ⟨_, _, h⟩ := (exec_actsOn_lorenz hi s).next_eq
    have hu : u.withLorenz s = u := by rw [State.withLorenz, hcfg, hwheels, hloglen, hpt, hct]
    obtain ⟨_, rfl⟩ := h s s' hs'
    obtain ⟨_, rfl⟩ := h u u' (hu.symm ▸ hu')
    exact ⟨rfl, rfl, rfl, rfl, rfl⟩

/-! ### The other commands -/

theorem exec_actsOn_flags {i : Instr} (hi : (i.isEnigma || i.isLorenz) = false)
    (s : State) : ActsOn State.withFlags s fun u => exec i (u.withFlags s) := by
  cases i with
  | nop => exact .responds s 0 fun _ => rfl
  | geterr => exact .responds s (s.errf.setWidth 16) fun _ => rfl
  | clrerr => exact .responds s.clearErrors 0 fun _ => rfl
  | info idx =>
    simp only [exec, execInfo, withFlags_cfg]
    match idx.toNat with
    | 0 => exact .responds s _ fun _ => rfl
    | 1 => exact .responds s _ fun _ => rfl
    | _ + 2 => exact .raises .index fun _ => rfl
  | bEnc a =>
    simp only [exec, execBEnc, withFlags_cfg]
    cases baudotCode s.cfg a with
    | none => exact .responds s _ fun _ => rfl
    | some k => exact .responds s _ fun _ => rfl
  | bDec a =>
    simp only [exec, execBDec, withFlags_cfg]
    cases codeOperand a with
    | none => exact .raises .value fun _ => rfl
    | some k => exact .responds s _ fun _ => rfl
  | _ => cases hi

/-! ### The port -/

/-- A command that acts on a part that is not of the port answers alike whatever the port holds. -/
theorem ActsOn.exec_onPort {part : State → State → State} {i : Instr} {s t : State}
    (h : ActsOn part s fun u => exec i (part u s))
    (hself : ∀ u, part u u = u) {ins : List PortIn} {n : Nat} {ls : List Nat}
    (hport : ∀ u v : State, part (u.onPort ins n ls) v = (part u v).onPort ins n ls)
    (ht : exec i s = .next t) : exec i (s.onPort ins n ls) = .next (t.onPort ins n ls) := by
  have hs : part (s.onPort ins n ls) s = s.onPort ins n ls := by rw [hport, hself]
  rw [← hself s] at ht
  rw [← hs]
  cases h with
  | responds v d h =>
    obtain rfl := Host.Outcome.next.inj ((h s).symm.trans ht)
    rw [h, hport]
    rfl
  | raises e h =>
    obtain rfl := Host.Outcome.next.inj ((h s).symm.trans ht)
    rw [h, hport]
    rfl
  | faults r h => cases (h s).symm.trans ht

/-- No command reads or writes the port's inputs and latencies (spec 70 R209). -/
theorem exec_onPort {i : Instr} {s t : State} (ht : exec i s = .next t) (ins : List PortIn)
    (n : Nat) (ls : List Nat) : exec i (s.onPort ins n ls) = .next (t.onPort ins n ls) := by
  cases hunit : i.isEnigma || i.isLorenz with
  | false => exact (exec_actsOn_flags hunit s).exec_onPort (fun _ => rfl) (fun _ _ => rfl) ht
  | true =>
    rcases (Bool.or_eq_true _ _).mp hunit with hi | hi
    · exact (exec_actsOn_enigma hi s).exec_onPort (fun _ => rfl) (fun _ _ => rfl) ht
    · exact (exec_actsOn_lorenz hi s).exec_onPort (fun _ => rfl) (fun _ _ => rfl) ht

theorem runWord_onPort {w : Word} {s t : State} (ht : runWord w s = .next t) (ins : List PortIn)
    (n : Nat) (ls : List Nat) : runWord w (s.onPort ins n ls) = .next (t.onPort ins n ls) := by
  cases hw : decode w with
  | error e =>
    rw [runWord_of_decode_error hw] at ht ⊢
    exact Host.Outcome.next.inj ht ▸ rfl
  | ok i =>
    rw [runWord_of_decode_ok hw] at ht ⊢
    exact exec_onPort ht ins n ls

/-! ### The command function -/

theorem runWord_keeps_cfg {w : Word} {s t : State} (ht : runWord w s = .next t) :
    t.cfg = s.cfg := by
  cases hw : decode w with
  | error e =>
    rw [runWord_of_decode_error hw] at ht
    exact Host.Outcome.next.inj ht ▸ rfl
  | ok i =>
    rw [runWord_of_decode_ok hw] at ht
    obtain ⟨e, rfl⟩ | ⟨u, d, hu, rfl⟩ := exec_next_cases ht
    · rfl
    · exact hu.cfg_eq

theorem runCommand_of_runWord {w : Word} {s t : State} {r : Word} (ht : runWord w s = .next t)
    (hr : t.rsp = some r) : runCommand w s = .next (t.takeResponse r) := by
  simp only [runCommand, ht, takeAnswer, hr]

/-- Every command word that answers has a response for the host to take (spec 30 R72). -/
theorem exists_rsp_of_runWord {w : Word} {s t : State} (ht : runWord w s = .next t) :
    ∃ r, t.rsp = some r := by
  obtain ⟨e, rfl⟩ | ⟨u, d, rfl⟩ := runWord_next_cases ht
  · exact ⟨_, rfl⟩
  · exact ⟨_, rfl⟩

theorem runCommand_next_cases {w : Word} {s t : State} (h : runCommand w s = .next t) :
    ∃ u r, runWord w s = .next u ∧ u.rsp = some r ∧ t = u.takeResponse r := by
  cases hrun : runWord w s with
  | next u =>
    obtain ⟨r, hr⟩ := exists_rsp_of_runWord hrun
    exact ⟨u, r, rfl, hr, Host.Outcome.next.inj (h.symm.trans (runCommand_of_runWord hrun hr))⟩
  | fault f => simp [runCommand, hrun, takeAnswer] at h
  | refused f => simp [runCommand, hrun, takeAnswer] at h

/-- Settles O60: the first edge runs the word, whatever the port's fields hold; the idle edges count
its latency down, and at the last edge its response is taken. -/
theorem portRunsTheCommandFunction : Obligations.PortRunsTheCommandFunction := by
  unfold Obligations.PortRunsTheCommandFunction
  intro s w rest hwf hrsp hpins t ht
  obtain ⟨u, r, hrun, hr, rfl⟩ := runCommand_next_cases ht
  have hstep := (step_of_offer hwf hpins rfl hrsp rfl).trans (runWord_onPort hrun _ _ _)
  rw [run_succ hstep]
  exact run_latency_taken (s := u.onPort _ _ _) (runWord_keeps_cfg hrun ▸ hwf) hr rfl
    List.length_replicate (fun q hq => List.eq_of_mem_replicate hq ▸ rfl) rfl rfl

end Sys2Proof.Machine
end

section
/-!
Lists of commands (spec 20 R66, 30 R85): what a list leaves when each of its commands keeps a
property, and what a list of reads leaves.
-/

namespace Sys2Proof.Machine

/-! ### One command of a list -/

theorem runCommand_of_responds {i : Instr} {s u : State} {d : Data}
    (h : exec i s = .next (u.respond d)) : runCommand (encode i) s = .next (u.answered d) :=
  runCommand_of_runWord ((runWord_encode i s).trans h) rfl

theorem issueAll_cons {i : Instr} {s t : State} (h : runCommand (encode i) s = .next t)
    (is : List Instr) : issueAll (i :: is) s = issueAll is t := by
  simp only [issueAll, List.map_cons, runCommands, h]

theorem issueAll_append {is : List Instr} {s t : State} (h : issueAll is s = .next t)
    (js : List Instr) : issueAll (is ++ js) s = issueAll js t := by
  induction is generalizing s with
  | nil => exact Host.Outcome.next.inj h ▸ rfl
  | cons i is ih =>
    cases hrun : runCommand (encode i) s with
    | next v =>
      rw [issueAll_cons hrun] at h
      rw [List.cons_append, issueAll_cons hrun, ih h]
    | fault f => simp [issueAll, runCommands, hrun] at h
    | refused r => simp [issueAll, runCommands, hrun] at h

section
variable (s : State) (d : Data)

@[simp] theorem answered_slots : (s.answered d).slots = s.slots := rfl
@[simp] theorem answered_wheel (w : WheelIx) : (s.answered d).wheel w = s.wheel w := rfl
@[simp] theorem answered_logByte (l : LogSel) (n : Nat) :
    (s.answered d).logByte l n = s.logByte l n := by simp [State.answered]

end

/-! ### A property that every command keeps -/

/-- From sound elements every list of commands completes, with a property that each of its commands
keeps. -/
theorem issueAll_keeps {P : State → Prop} {is : List Instr}
    (htake : ∀ u r, P u → P (u.takeResponse r))
    (hexec : ∀ i ∈ is, ∀ u v, u.Sound → P u → exec i u = .next v → P v)
    {s : State} (hs : s.Sound) (hP : P s) : ∃ t, issueAll is s = .next t ∧ t.Sound ∧ P t := by
  induction is generalizing s with
  | nil => exact ⟨s, rfl, hs, hP⟩
  | cons i is ih =>
    obtain ⟨u, hu⟩ := runWord_answers hs.loglen_le (encode i)
    obtain ⟨r, hr⟩ := exists_rsp_of_runWord hu
    have hsound : u.Sound := ((inv_iff u).1 (hs.inv_of_runWord hu)).1
    have hPu : P u := hexec i List.mem_cons_self s u hs hP ((runWord_encode i s).symm.trans hu)
    rw [issueAll_cons (runCommand_of_runWord hu hr)]
    exact ih (fun j hj => hexec j (List.mem_cons_of_mem i hj)) (hsound.takeResponse r)
      (htake u r hPu)

/-! ### Reads -/

/-- The command responds with `d` and writes nothing, whatever responses have gone before. -/
def State.Reads (s : State) (i : Instr) (d : Data) : Prop :=
  ∀ r l, exec i { s with rsp := r, taken := l } =
    .next (State.respond { s with rsp := r, taken := l } d)

/-- A list of reads leaves the state as it was but for the responses taken. -/
theorem issueAll_reads {α : Type} {cmd : α → Instr} {data : α → Data} {l : List α} {s : State}
    (h : ∀ x ∈ l, s.Reads (cmd x) (data x)) :
    ∃ r, issueAll (l.map cmd) s = .next { s with
      rsp := r, taken := (l.map fun x => okResponse (data x)).reverse ++ s.taken } := by
  induction l generalizing s with
  | nil => exact ⟨s.rsp, rfl⟩
  | cons x l ih =>
    have hx := runCommand_of_responds (h x List.mem_cons_self s.rsp s.taken)
    obtain ⟨r, hr⟩ := ih (s := s.answered (data x)) fun y hy r l =>
      h y (List.mem_cons_of_mem x hy) r l
    refine ⟨r, ?_⟩
    rw [List.map_cons, issueAll_cons hx, hr]
    simp [State.answered]

end Sys2Proof.Machine
end

section
/-!
Undo of the Enigma unit (spec 70 R196). A text moves the rotors and leaves their identities, so
ERESTORE, which writes the position and the latch of one slot after the other, brings the chain
back.
-/

namespace Sys2Proof.Machine

/-! ### ESNAP -/

theorem toNat_field8 {n : Nat} (h : n < 256) : (field8 n).toNat = n :=
  (BitVec.toNat_ofNat n 8).trans (Nat.mod_eq_of_lt h)

theorem slotIndex_field8 {c : Config} (hc : c.nrot ≤ 16) {n : Nat} (hn : n < c.nrot) :
    slotIndex c (field8 n) = some n := by
  have hbyte : (field8 n).toNat = n := toNat_field8 (by omega)
  rw [slotIndex_some c (field8 n) (hbyte.symm ▸ hn), hbyte]

theorem map_range_slot {α : Type} (f : Slot → α) (s : State) :
    (List.range s.slots.length).map (fun n => f (s.slot n)) = s.slots.map f := by
  apply List.ext_getElem
  · simp
  · intro n h₁ h₂
    have hn : n < s.slots.length := by simpa using h₂
    simp [State.slot, hn]

section
variable {s : State} (hc : s.cfg.nrot ≤ 16) {n : Nat} (hn : n < s.cfg.nrot)
include hc hn

theorem reads_eGetpos : s.Reads (.eGetpos (field8 n)) (BitVec.ofNat 16 (s.slot n).pos.val) := by
  intro r l
  simp only [exec, execEGetpos, slotIndex_field8 hc hn]
  rfl

theorem reads_eGetlat :
    s.Reads (.eGetlat (field8 n)) (if (s.slot n).lat then 1#16 else 0#16) := by
  intro r l
  simp only [exec, execEGetlat, slotIndex_field8 hc hn, setWidth_ofBool]
  rfl

end

/-- ESNAP answers every position and then every latch (spec 70 R196). -/
theorem issueAll_pseudoEsnap {s : State} (hs : s.Sound) :
    ∃ v, issueAll (pseudoEsnap s.cfg.nrot) s = .next v ∧
      v.taken = (s.slots.map (fun r => okResponse (BitVec.ofNat 16 r.pos.val)) ++
        s.slots.map (fun r => okResponse (if r.lat then 1#16 else 0#16))).reverse ++ s.taken := by
  have hc := hs.cfg_wellFormed.nrot_le
  have hn : ∀ n ∈ List.range s.slots.length, n < s.cfg.nrot := fun n hn =>
    hs.chain_length ▸ List.mem_range.1 hn
  obtain ⟨r, hpos⟩ := issueAll_reads fun n h => reads_eGetpos hc (hn n h)
  obtain ⟨q, hlat⟩ := issueAll_reads (s := { s with rsp := r, taken := _ })
    fun n h r' l => reads_eGetlat hc (hn n h) r' l
  rw [pseudoEsnap, ← hs.chain_length, issueAll_append hpos]
  refine ⟨_, hlat, ?_⟩
  rw [List.reverse_append, List.append_assoc, ← map_range_slot, ← map_range_slot]

/-! ### ERESTORE -/

/-- The state after an E_SETPOS of slot `n`, its response taken. -/
def State.slotPositioned (s : State) (n : Nat) (p : Letter) : State :=
  (s.setSlot n { s.slot n with pos := p }).answered 0

/-- The state after an E_SETLAT of slot `n`, its response taken. -/
def State.slotLatched (s : State) (n : Nat) (v : Bool) : State :=
  (s.setSlot n { s.slot n with lat := v }).answered 0

section
variable {s : State} (hc : s.cfg.nrot ≤ 16) {n : Nat} (hn : n < s.cfg.nrot)
include hc hn

theorem runCommand_eSetpos (p : Letter) :
    runCommand (encode (.eSetpos (field8 n) (field8 p.val))) s = .next (s.slotPositioned n p) := by
  have hp : letterOperand (field8 p.val) = some p :=
    letterOperand_of_toNat_eq (toNat_ofNat_letter p)
  apply runCommand_of_responds
  simp only [exec, execESetpos, slotIndex_field8 hc hn, hp]

theorem runCommand_eSetlat (v : Bool) :
    runCommand (encode (.eSetlat (field8 n) (if v then 1 else 0))) s =
      .next (s.slotLatched n v) := by
  have hv : bitOperand (if v then 1 else 0) = some v := by cases v <;> rfl
  apply runCommand_of_responds
  simp only [exec, execESetlat, slotIndex_field8 hc hn, hv]

end

/-- ERESTORE of what a chain `target` shows, from slot `k` on (spec 30 R85). -/
def restoreFrom (target : List Slot) (k : Nat) : List Instr :=
  match target with
  | [] => []
  | r :: target =>
    .eSetpos (field8 k) (field8 r.pos.val) :: .eSetlat (field8 k) (if r.lat then 1 else 0) ::
      restoreFrom target (k + 1)

theorem restoreFrom_eq (target : List Slot) (k : Nat) :
    ((target.map fun r => (r.pos, r.lat)).zipIdx k).flatMap (fun x =>
      [.eSetpos (field8 x.2) (field8 x.1.1.val), .eSetlat (field8 x.2) (if x.1.2 then 1 else 0)]) =
      restoreFrom target k := by
  induction target generalizing k with
  | nil => rfl
  | cons r target ih =>
    rw [List.map_cons, List.zipIdx_cons, List.flatMap_cons, ih]
    rfl

theorem pseudoErestore_enigmaSnapshot (s : State) :
    pseudoErestore s.enigmaSnapshot = restoreFrom s.slots 0 :=
  restoreFrom_eq s.slots 0

/-- The two writes of ERESTORE to one slot give it the position and the latch of a slot with the
same rotor. -/
theorem issueAll_restoreFrom_cons {t : State} {pre rest target : List Slot} {r q : Slot}
    (hc : t.cfg.nrot ≤ 16) (hn : pre.length < t.cfg.nrot) (hslots : t.slots = pre ++ r :: rest)
    (hid : (r.fitted, r.id) = (q.fitted, q.id)) :
    ∃ u, issueAll (restoreFrom (q :: target) pre.length) t =
        issueAll (restoreFrom target (pre.length + 1)) u ∧
      u.slots = pre ++ q :: rest ∧ u.cfg = t.cfg ∧ u.refl = t.refl ∧ u.plug = t.plug ∧
      u.errf = t.errf := by
  obtain ⟨hfitted, hid⟩ := Prod.mk.inj hid
  refine ⟨(t.slotPositioned pre.length q.pos).slotLatched pre.length q.lat,
    (issueAll_cons (runCommand_eSetpos hc hn q.pos) _).trans
      (issueAll_cons (runCommand_eSetlat (s := t.slotPositioned _ _) hc hn q.lat) _),
    ?_, rfl, rfl, rfl, rfl⟩
  simp [State.slotLatched, State.slotPositioned, State.slot, hslots, hfitted, hid]

/-- ERESTORE turns a chain of the same rotors into the one it restores, slot by slot. -/
theorem issueAll_restoreFrom {t : State} {pre rest target : List Slot} (hc : t.cfg.nrot ≤ 16)
    (hlen : t.slots.length = t.cfg.nrot) (hslots : t.slots = pre ++ rest)
    (hid : identities rest = identities target) :
    ∃ u, issueAll (restoreFrom target pre.length) t = .next u ∧ u.slots = pre ++ target ∧
      u.refl = t.refl ∧ u.plug = t.plug ∧ u.errf = t.errf := by
  induction target generalizing t pre rest with
  | nil =>
    have hrest : rest = [] := List.map_eq_nil_iff.1 hid
    exact ⟨t, rfl, hslots.trans (by rw [hrest]), rfl, rfl, rfl⟩
  | cons q target ih =>
    obtain ⟨r, rest, rfl, hr, hid⟩ := List.map_eq_cons_iff.1 hid
    have hn : pre.length < t.cfg.nrot := by
      rw [← hlen, hslots, List.length_append, List.length_cons]
      omega
    obtain ⟨u, hu, huslots, hcfg, hrefl, hplug, herrf⟩ :=
      issueAll_restoreFrom_cons (target := target) hc hn hslots hr
    have hlen' : u.slots.length = u.cfg.nrot := by
      rw [hcfg, ← hlen, huslots, hslots]
      simp
    obtain ⟨v, hv, hvslots, hvrefl, hvplug, hverrf⟩ := ih (pre := pre ++ [q]) (hcfg ▸ hc) hlen'
      (huslots.trans (List.append_cons pre q rest)) hid
    rw [List.length_append] at hv
    exact ⟨v, hu.trans hv, hvslots.trans (List.append_cons pre q target).symm, hvrefl.trans hrefl,
      hvplug.trans hplug, hverrf.trans herrf⟩

/-! ### A text between snapshot and restore -/

/-- What a text leaves of the Enigma unit: the rotors in their slots, the reflector and the
plugboard. -/
structure State.SameRotors (s u : State) : Prop where
  cfg_eq : u.cfg = s.cfg
  identities_eq : identities u.slots = identities s.slots
  refl_eq : u.refl = s.refl
  plug_eq : u.plug = s.plug

theorem State.SameRotors.exec_eEnter {s u v : State} {a : Byte} (h : s.SameRotors u)
    (hv : exec (.eEnter a) u = .next v) : s.SameRotors v := by
  obtain ⟨e, rfl⟩ | ⟨w, d, hw, rfl⟩ := exec_next_cases hv
  · exact { h with }
  · cases hw with
    | nothing => exact { h with }
    | rotorsStepped =>
      exact { h with identities_eq := (stepChain_identities _ _ _).trans h.identities_eq }

theorem issueAll_pseudoEncode_sameRotors {s : State} (hs : s.Sound) (text : List Byte) :
    ∃ t, issueAll (pseudoEncode text) s = .next t ∧ t.Sound ∧ s.SameRotors t := by
  refine issueAll_keeps (fun u r h => { h with }) (fun i hi u v _ h hv => ?_) hs
    ⟨rfl, rfl, rfl, rfl⟩
  obtain ⟨a, -, rfl⟩ := List.mem_map.1 hi
  exact h.exec_eEnter hv

/-- Settles O50: the reads of ESNAP, the text, and the restore of a chain that still holds the
rotors of the snapshot. -/
theorem enigmaUndoRestoresTheSlots : Obligations.EnigmaUndoRestoresTheSlots := by
  unfold Obligations.EnigmaUndoRestoresTheSlots
  intro s text hinv
  have hs := ((inv_iff s).1 hinv).1
  obtain ⟨v, hv, htaken⟩ := issueAll_pseudoEsnap hs
  obtain ⟨t, ht, hsound, hsame⟩ := issueAll_pseudoEncode_sameRotors hs text
  obtain ⟨u, hu, hslots, hrefl, hplug, herrf⟩ := issueAll_restoreFrom (pre := [])
    hsound.cfg_wellFormed.nrot_le hsound.chain_length rfl hsame.identities_eq
  refine ⟨v, t, u, hv, htaken, ht, ?_, hslots, hrefl.trans hsame.refl_eq,
    hplug.trans hsame.plug_eq, herrf⟩
  rw [pseudoErestore_enigmaSnapshot]
  exact hu

end Sys2Proof.Machine
end

section
/-!
Undo of the Lorenz unit (spec 70 R196). A text steps the wheels and appends to the logs: it leaves
the pins and every log byte below the old length, so LRESTORE, which writes every wheel's position
and truncates the logs, brings the unit back.
-/

namespace Sys2Proof.Machine

/-! ### LSNAP -/

theorem wheelIndex_field8 (w : WheelIx) : wheelIndex (field8 w.val) = some w :=
  wheelIndex_of_toNat_eq (toNat_field8 (by omega))

theorem wheelSnapshot_eq (s : State) :
    s.wheelSnapshot = (List.finRange 12).map fun w => (s.wheel w).pos := by
  apply List.ext_getElem
  · simp [State.wheelSnapshot]
  · intro n h₁ h₂
    simp [State.wheelSnapshot, State.wheel]

theorem pseudoLsnap_eq :
    pseudoLsnap = (List.finRange 12).map (fun w => .lGetpos (field8 w.val)) ++ [.lLoglen] := rfl

theorem reads_lGetpos (s : State) (w : WheelIx) :
    s.Reads (.lGetpos (field8 w.val)) (BitVec.ofNat 16 (s.wheel w).pos) := by
  intro r l
  simp only [exec, execLGetpos, wheelIndex_field8]
  rfl

theorem runCommand_lLoglen (s : State) :
    runCommand (encode .lLoglen) s = .next (s.answered s.loglen) :=
  runCommand_of_responds rfl

/-- LSNAP answers every position and then the log length, and moves nothing (spec 70 R196). -/
theorem issueAll_pseudoLsnap (s : State) :
    ∃ r, issueAll pseudoLsnap s = .next { s with
      rsp := r
      taken := (s.wheelSnapshot.map (fun p => okResponse (BitVec.ofNat 16 p)) ++
        [okResponse s.loglen]).reverse ++ s.taken } := by
  obtain ⟨r, hpos⟩ := issueAll_reads fun w (_ : w ∈ List.finRange 12) => reads_lGetpos s w
  refine ⟨none, ?_⟩
  rw [pseudoLsnap_eq, issueAll_append hpos, issueAll_cons (runCommand_lLoglen _), wheelSnapshot_eq,
    List.map_map, List.reverse_append, List.append_assoc]
  rfl

/-! ### LRESTORE -/

theorem pseudoLrestore_wheelSnapshot (s : State) (len : Data) :
    pseudoLrestore s.wheelSnapshot len =
      (List.finRange 12).map (fun w => .lSetpos (field8 w.val) (field8 (s.wheel w).pos)) ++
        [.lLogtrn len] := by
  rw [wheelSnapshot_eq]
  rfl

theorem runCommand_lSetpos {s : State} {w : WheelIx} {p : Nat} (hp : p < s.cfg.wheelSizes[w])
    (hbyte : p < 256) :
    runCommand (encode (.lSetpos (field8 w.val) (field8 p))) s =
      .next ((s.setWheel w { s.wheel w with pos := p }).answered 0) := by
  have hpos : (field8 p).toNat = p := toNat_field8 hbyte
  have hwheel : wheelPosition s.cfg w (field8 p) = some p :=
    (wheelPosition_some (hpos.symm ▸ hp)).trans (congrArg some hpos)
  apply runCommand_of_responds
  simp only [exec, execLSetpos, wheelIndex_field8, hwheel]

/-- A list of L_SETPOS writes the positions of its wheels and nothing else of the unit. -/
theorem issueAll_lSetpos {t : State} {pos : WheelIx → Nat} (ws : List WheelIx)
    (hpos : ∀ w, pos w < t.cfg.wheelSizes[w]) (hbyte : ∀ w, pos w < 256) :
    ∃ u, issueAll (ws.map fun w => .lSetpos (field8 w.val) (field8 (pos w))) t = .next u ∧
      (∀ w, u.wheel w = if w ∈ ws then { t.wheel w with pos := pos w } else t.wheel w) ∧
      u.loglen = t.loglen ∧ u.errf = t.errf ∧ ∀ l n, u.logByte l n = t.logByte l n := by
  induction ws generalizing t with
  | nil => exact ⟨t, rfl, fun w => rfl, rfl, rfl, fun _ _ => rfl⟩
  | cons w ws ih =>
    obtain ⟨u, hu, hwheels, hloglen, herrf, hlogs⟩ :=
      ih (t := (t.setWheel w { t.wheel w with pos := pos w }).answered 0) hpos
    refine ⟨u, (issueAll_cons (runCommand_lSetpos (hpos w) (hbyte w)) _).trans hu, fun x => ?_,
      hloglen, herrf, fun l n => (hlogs l n).trans (by simp)⟩
    rw [hwheels, answered_wheel, setWheel_wheel]
    by_cases hx : x = w
    · subst hx
      simp
    · simp [hx]

theorem runCommand_lLogtrn {s : State} {n : Data} (hn : n.toNat ≤ s.loglen.toNat) :
    runCommand (encode (.lLogtrn n)) s = .next ((s.setLoglen n).answered 0) :=
  runCommand_of_responds (if_neg hn.not_gt)

/-! ### A text between snapshot and restore -/

/-- What a text leaves of the Lorenz unit: the pins, and the logs below their old length, which has
not fallen. -/
structure State.LogsExtended (s u : State) : Prop where
  cfg_eq : u.cfg = s.cfg
  pins_eq : ∀ w, (u.wheel w).pins = (s.wheel w).pins
  loglen_le : s.loglen.toNat ≤ u.loglen.toNat
  logByte_eq : ∀ (l : LogSel) (n : Nat), n < s.loglen.toNat → u.logByte l n = s.logByte l n

namespace State.LogsExtended

variable {s u : State}

/-- An append writes the cell at the length, which lies at or above the old one, and the length does
not wrap, since LOG_DEPTH is at most 65535 (spec 00 R7). -/
theorem appended (h : s.LogsExtended u) (hu : u.Sound) (hroom : u.loglen.toNat < u.cfg.logDepth)
    (p c : Byte) : s.LogsExtended (u.appended p c) := by
  obtain ⟨-, -, hother⟩ := appended_appendedAt u p c
  have hdepth := hu.cfg_wellFormed.logDepth_le
  have hlen : (u.appended p c).loglen.toNat = u.loglen.toNat + 1 :=
    BitVec.toNat_add_of_lt (show u.loglen.toNat + 1 < 2 ^ 16 by omega)
  have hle := h.loglen_le
  exact { h with
    loglen_le := by omega
    logByte_eq := fun l n hn => (hother l n (by omega)).trans (h.logByte_eq l n hn) }

theorem stepWheels (h : s.LogsExtended u) : s.LogsExtended u.stepWheels where
  cfg_eq := (stepEach_cfg u _).trans h.cfg_eq
  pins_eq w := by
    rw [stepWheels_wheel, ← h.pins_eq w]
    split <;> rfl
  loglen_le := by
    rw [stepWheels_frame]
    exact h.loglen_le
  logByte_eq l n hn := (stepWheels_logByte u l n).trans (h.logByte_eq l n hn)

theorem respond (h : s.LogsExtended u) (d : Data) : s.LogsExtended (u.respond d) :=
  { h with logByte_eq := fun l n hn => (respond_logByte u d l n).trans (h.logByte_eq l n hn) }

theorem raise (h : s.LogsExtended u) (e : ErrorStatus) : s.LogsExtended (u.raise e) :=
  { h with logByte_eq := fun l n hn => (raise_logByte u e l n).trans (h.logByte_eq l n hn) }

theorem takeResponse (h : s.LogsExtended u) (r : Word) : s.LogsExtended (u.takeResponse r) :=
  { h with logByte_eq := fun l n hn => (takeResponse_logByte u r l n).trans (h.logByte_eq l n hn) }

theorem exec_lProc {v : State} {a : Byte} (h : s.LogsExtended u) (hu : u.Sound)
    (hv : exec (.lProc a) u = .next v) : s.LogsExtended v := by
  obtain ⟨e, rfl⟩ | ⟨w, d, hw, rfl⟩ := exec_next_cases hv
  · exact h.raise e
  · refine respond ?_ d
    cases hw with
    | nothing => exact h
    | newlineLogged _ hroom => exact h.appended hu hroom _ _
    | symbolLogged _ hroom => exact (h.appended hu hroom _ _).stepWheels

end State.LogsExtended

theorem issueAll_pseudoLprocess_logsExtended {s : State} (hs : s.Sound) (text : List Byte) :
    ∃ t, issueAll (pseudoLprocess text) s = .next t ∧ t.Sound ∧ s.LogsExtended t := by
  refine issueAll_keeps (fun u r h => h.takeResponse r) (fun i hi u v hu h hv => ?_) hs
    ⟨rfl, fun _ => rfl, le_rfl, fun _ _ _ => rfl⟩
  obtain ⟨a, -, rfl⟩ := List.mem_map.1 hi
  exact h.exec_lProc hu hv

/-- LRESTORE after a text (spec 70 R196), with every position in a byte (log entry 6). -/
theorem issueAll_pseudoLrestore {s t : State} (hs : s.Sound) (ht : s.LogsExtended t)
    (hsizes : ∀ w : WheelIx, s.cfg.wheelSizes[w] ≤ 256) :
    ∃ u, issueAll (pseudoLrestore s.wheelSnapshot s.loglen) t = .next u ∧ u.wheels = s.wheels ∧
      u.loglen = s.loglen ∧ u.errf = t.errf ∧
      ∀ (l : LogSel) (n : Nat), n < s.loglen.toNat → u.logByte l n = s.logByte l n := by
  have hpos (w : WheelIx) : (s.wheel w).pos < s.cfg.wheelSizes[w] := (hs.wheel_fits w).pos_lt
  obtain ⟨u, hu, hwheels, hloglen, herrf, hlogs⟩ := issueAll_lSetpos (t := t) (List.finRange 12)
    (ht.cfg_eq.symm ▸ hpos) fun w => (hpos w).trans_le (hsizes w)
  have hlen : s.loglen.toNat ≤ u.loglen.toNat := hloglen.symm ▸ ht.loglen_le
  have hwheel : ∀ w, u.wheel w = s.wheel w := fun w => by
    simp only [hwheels, List.mem_finRange, if_true, ht.pins_eq]
  refine ⟨(u.setLoglen s.loglen).answered 0, ?_, ?_, rfl, herrf, fun l n hn => ?_⟩
  · rw [pseudoLrestore_wheelSnapshot, issueAll_append hu, issueAll_cons (runCommand_lLogtrn hlen)]
    rfl
  · exact Vector.ext fun n hn => hwheel ⟨n, hn⟩
  · rw [answered_logByte, setLoglen_logByte, hlogs, ht.logByte_eq l n hn]

/-- Settles O51: the reads of LSNAP, the text, and the restore of a unit with the pins and the log
bytes of the snapshot. -/
theorem lorenzUndoRestoresWheelsAndLog : Obligations.LorenzUndoRestoresWheelsAndLog := by
  unfold Obligations.LorenzUndoRestoresWheelsAndLog
  intro s text hinv hsizes
  have hs := ((inv_iff s).1 hinv).1
  obtain ⟨r, hsnap⟩ := issueAll_pseudoLsnap s
  obtain ⟨t, ht, -, hext⟩ := issueAll_pseudoLprocess_logsExtended hs text
  obtain ⟨u, hu, hwheels, hloglen, herrf, hlogs⟩ := issueAll_pseudoLrestore hs hext hsizes
  exact ⟨_, t, u, hsnap, rfl, rfl, rfl, ht, hu, hwheels, hloglen, herrf, hlogs⟩

end Sys2Proof.Machine
end
